-- ==== Sys2Proof/Word.lean ====
section
/-!
DEFINITION. The word types of the spec (spec/00_scope.md R6, R8, R10; spec/30_encoding.md R70).
-/
namespace Sys2Proof

/-- A byte: 8 bits, unsigned (R8). -/
abbrev Byte := BitVec 8

/-- A CAN identifier as an operand or a result: u16 (R70). -/
abbrev CanId := BitVec 16

/-- A timestamp or an interval: unsigned, `TSW` = 64 bits (R6, R8; log 8). -/
abbrev Timestamp := BitVec 64

/-- The `speed_percent` operand: signed, `SPW` = 32 bits (R6, R131; log 8). -/
abbrev Speed := BitVec 32

/-- The `timeout_ms` operand: u16 (R135). -/
abbrev TimeoutMs := BitVec 16

/-- A frame: exactly 20 bytes, byte 0 first on the wire (R10, R42, R60). -/
abbrev Frame := Vector Byte 20

end Sys2Proof
end

