-- ==== Sys2Proof/Config.lean ====
section
/-!
DEFINITION. The constants the document fixes, and the implementation parameters (spec/00_scope.md R6, R7).
The parameters are a record that `State` holds and no operation writes, so that a statement about every state is a
statement about every configuration.
-/
namespace Sys2Proof

/-- The sync header bytes (R6, R61). -/
abbrev Config.sync0 : Byte := 0xAA
@[inherit_doc Config.sync0] abbrev Config.sync1 : Byte := 0x55

/-- `MAX_DLC` (R6). -/
abbrev Config.maxDlc : Nat := 8

/-- `ID_MAX`: the largest identifier `ENCODE` accepts (R6). -/
abbrev Config.idMax : Nat := 0x7FF

/-- The five CAN identifier constants (R64). -/
abbrev Config.motorCmd : CanId := 0x100
@[inherit_doc Config.motorCmd] abbrev Config.emergencyStop : CanId := 0x101
@[inherit_doc Config.motorCmd] abbrev Config.configFrame : CanId := 0x102
@[inherit_doc Config.motorCmd] abbrev Config.heartbeatOut : CanId := 0x103
@[inherit_doc Config.motorCmd] abbrev Config.heartbeatIn : CanId := 0x104

/-- `TICKS_PER_SECOND`: timestamp units in a second (R6, R12). -/
abbrev Config.ticksPerSecond : Nat := 1000

/-- `LOOP_SLEEP` (R6, R146): the spec gives it no value and no rule depends on it. -/
opaque Config.loopSleep : Timestamp

/-- `CMD_CODE`: one byte for each command variant (R6, R132). -/
structure CmdCodes where
  stop : Byte
  forward : Byte
  backward : Byte
  turnLeft : Byte
  turnRight : Byte
deriving DecidableEq, Repr

/-- The implementation parameters of R6 that the document does not fix. -/
structure Params where
  /-- What `ENCODE` writes in the reserved bytes 2, 4, 6, 7, 8 and 18 (R66). -/
  rsv2 : Byte
  rsv4 : Byte
  rsv6 : Byte
  rsv7 : Byte
  rsv8 : Byte
  rsv18 : Byte
  /-- `HB_DLC`, legal 0 to 8: the payload length of the heartbeat `HB_TICK` emits (R112). -/
  hbDlc : Fin 9
  cmdCodes : CmdCodes
  /-- The configured `TX_INTERVAL` and `RX_TIMEOUT`, which the host hands to `RESET` at session start (R180, R182). -/
  txInterval : Timestamp
  rxTimeout : Timestamp
deriving DecidableEq, Repr

/-- The default parameters of R6. -/
def Params.default : Params where
  rsv2 := 0x01
  rsv4 := 0x01
  rsv6 := 0x01
  rsv7 := 0x00
  rsv8 := 0x00
  rsv18 := 0x00
  hbDlc := 8
  cmdCodes := { stop := 0, forward := 1, backward := 2, turnLeft := 3, turnRight := 4 }
  txInterval := BitVec.ofNat 64 Config.ticksPerSecond
  rxTimeout := BitVec.ofNat 64 (5 * Config.ticksPerSecond)

end Sys2Proof
end

