-- ==== Sys2Proof/Syntax.lean ====
section
/-!
DEFINITION. The instructions: one constructor for each row of spec/opcode_table.json, 9 operations of format OP
(spec/30_encoding.md R70, R71) and 6 frame kinds of format F20 (R60, R69).
-/
namespace Sys2Proof

/-- The five command variants (spec/00_scope.md R14, R131). -/
inductive Variant where
  | stop
  | forward
  | backward
  | turnLeft
  | turnRight
deriving DecidableEq, Repr

/-- An operation of the block with its operands (R70), or a 20-byte group that the host receives, named by its kind (R69). -/
inductive Instr where
  | reset (txInterval rxTimeout : Timestamp)
  | encode (canId : CanId) (payload : List Byte)
  | decode (frame : Frame)
  | hbTick (now : Timestamp)
  | hbRx (canId : CanId) (now : Timestamp)
  | hbCheck (now : Timestamp)
  | cmdEncode (variant : Variant) (speedPercent : Speed)
  | estopEncode
  | configEncode (maxSpeed : Byte) (timeoutMs : TimeoutMs)
  | frame (f : Frame)
  | frameMotorCmd (f : Frame)
  | frameEmergencyStop (f : Frame)
  | frameConfig (f : Frame)
  | frameHeartbeatOut (f : Frame)
  | frameHeartbeatIn (f : Frame)
deriving DecidableEq, Repr

/-- The two formats of the table. -/
inductive Format where
  /-- A request: operation selector, then operands. -/
  | op
  /-- A 20-byte group. -/
  | f20
deriving DecidableEq, Repr

/-- The kinds of frame of R69, `any` standing for a frame with a good header and no named identifier. -/
inductive FrameKind where
  | any
  | motorCmd
  | emergencyStop
  | config
  | heartbeatOut
  | heartbeatIn
deriving DecidableEq, Repr

/-- The instruction that stands for a received frame of a kind. -/
def FrameKind.instr : FrameKind → Frame → Instr
  | .any, f => .frame f
  | .motorCmd, f => .frameMotorCmd f
  | .emergencyStop, f => .frameEmergencyStop f
  | .config, f => .frameConfig f
  | .heartbeatOut, f => .frameHeartbeatOut f
  | .heartbeatIn, f => .frameHeartbeatIn f

/-- The format of an instruction's row. -/
def Instr.format : Instr → Format
  | .reset _ _ => .op
  | .encode _ _ => .op
  | .decode _ => .op
  | .hbTick _ => .op
  | .hbRx _ _ => .op
  | .hbCheck _ => .op
  | .cmdEncode _ _ => .op
  | .estopEncode => .op
  | .configEncode _ _ => .op
  | .frame _ => .f20
  | .frameMotorCmd _ => .f20
  | .frameEmergencyStop _ => .f20
  | .frameConfig _ => .f20
  | .frameHeartbeatOut _ => .f20
  | .frameHeartbeatIn _ => .f20

end Sys2Proof
end

