-- ==== Sys2Proof/WellFormed.lean ====
section
/-!
DEFINITION. Which instructions have an encoding: a payload whose length fits its length byte (log 3), and frames of the
kind their constructor names (spec/30_encoding.md R69). The precondition of `ENCODE` (R92) is no part of it: a request
that breaks it is well formed and is refused when it is performed.
-/
namespace Sys2Proof

/-- The frame begins with the sync header (R61). -/
abbrev Frame.HasSync (f : Frame) : Prop := f[0] = Config.sync0 ∧ f[1] = Config.sync1

/-- The identifier bytes 3 and 5 hold this identifier (R64's columns ID_HI and ID_LO). -/
abbrev Frame.HasId (f : Frame) (hi lo : Byte) : Prop := f[3] = hi ∧ f[5] = lo

/-- The identifier bytes hold one of the five named identifiers (R64). -/
abbrev Frame.HasNamedId (f : Frame) : Prop :=
  f.HasId 0x01 0x00 ∨ f.HasId 0x01 0x01 ∨ f.HasId 0x01 0x02 ∨ f.HasId 0x01 0x03 ∨ f.HasId 0x01 0x04

/-- The instruction has an encoding that stands for it. -/
abbrev Instr.WellFormed : Instr → Prop
  | .reset _ _ => True
  | .encode _ payload => payload.length ≤ 255
  | .decode _ => True
  | .hbTick _ => True
  | .hbRx _ _ => True
  | .hbCheck _ => True
  | .cmdEncode _ _ => True
  | .estopEncode => True
  | .configEncode _ _ => True
  | .frame f => f.HasSync ∧ ¬ f.HasNamedId
  | .frameMotorCmd f => f.HasSync ∧ f.HasId 0x01 0x00
  | .frameEmergencyStop f => f.HasSync ∧ f.HasId 0x01 0x01
  | .frameConfig f => f.HasSync ∧ f.HasId 0x01 0x02
  | .frameHeartbeatOut f => f.HasSync ∧ f.HasId 0x01 0x03
  | .frameHeartbeatIn f => f.HasSync ∧ f.HasId 0x01 0x04

end Sys2Proof
end

