-- ==== Sys2Proof/Decode.lean ====
section
/-!
DEFINITION. The decoder and the encoder of both formats (spec/30_encoding.md R60, R69, R70, R71).
The selector of a request is the spec's (R71). The layout of its operands is the model's (log 3): after the selector byte,
the operands in the order of R70, the most significant byte first, a payload as one length byte and its bytes.
-/
namespace Sys2Proof

/-- Why bytes are no instruction. -/
inductive DecodeError where
  /-- The selector is one that R71 leaves unassigned (U3). -/
  | unassignedSelector (op : Nat)
  /-- The request ends before its operands do (log 3). -/
  | truncated
  /-- The variant byte names no variant (log 3). -/
  | badVariant (code : Nat)
  /-- A group of 20 bytes that does not begin with the sync header: of no kind of R69. -/
  | badHeader
  /-- A group that is not 20 bytes long (R46). -/
  | badLength
deriving DecidableEq, Repr

/-! ### Numbers as bytes -/

/-- The `n` low bytes of `v`, most significant first. -/
def beBytes : Nat → Nat → List Byte
  | 0, _ => []
  | n + 1, v => BitVec.ofNat 8 (v / 256 ^ n) :: beBytes n v

/-- The number that bytes stand for, most significant first. -/
def beNat : List Byte → Nat
  | [] => 0
  | b :: bs => b.toNat * 256 ^ bs.length + beNat bs

/-- The `n` low bytes of `v`, least significant first: how a table word numbers its bytes. -/
def leBytes : Nat → Nat → List Byte
  | 0, _ => []
  | n + 1, v => BitVec.ofNat 8 v :: leBytes n (v / 256)

/-- The first `n` bytes, and the rest. -/
def takeBytes : Nat → List Byte → Except DecodeError (List Byte × List Byte)
  | 0, bs => .ok ([], bs)
  | _ + 1, [] => .error .truncated
  | n + 1, b :: bs => (takeBytes n bs).map fun r => (b :: r.1, r.2)

/-- An operand of `n` bytes, as a number, and the rest. -/
def takeNat (n : Nat) (bs : List Byte) : Except DecodeError (Nat × List Byte) :=
  (takeBytes n bs).map fun r => (beNat r.1, r.2)

/-- Twenty bytes as a frame (R46: no other length is one). -/
def frameOfBytes (bs : List Byte) : Except DecodeError Frame :=
  if h : bs.length = 20 then .ok ⟨bs.toArray, by simpa using h⟩ else .error .badLength

/-! ### Format F20 -/

/-- A row of R69: match and mask of bytes 0 to 5 (bytes 6 to 19 are 00 in both). -/
structure FrameRow where
  kind : FrameKind
  pattern : List Byte
  mask : List Byte
deriving DecidableEq, Repr

/-- `(F & mask) = match`, bytewise. -/
def FrameRow.fits (r : FrameRow) (f : Frame) : Bool :=
  (f.toList.zip (r.mask.zip r.pattern)).all fun x => (x.1 &&& x.2.1) == x.2.2

/-- The rows of R69, the five named kinds before the row that every one of them fits. -/
def frameRows : List FrameRow :=
  [ ⟨.motorCmd,      [0xAA, 0x55, 0x00, 0x01, 0x00, 0x00], [0xFF, 0xFF, 0x00, 0xFF, 0x00, 0xFF]⟩,
    ⟨.emergencyStop, [0xAA, 0x55, 0x00, 0x01, 0x00, 0x01], [0xFF, 0xFF, 0x00, 0xFF, 0x00, 0xFF]⟩,
    ⟨.config,        [0xAA, 0x55, 0x00, 0x01, 0x00, 0x02], [0xFF, 0xFF, 0x00, 0xFF, 0x00, 0xFF]⟩,
    ⟨.heartbeatOut,  [0xAA, 0x55, 0x00, 0x01, 0x00, 0x03], [0xFF, 0xFF, 0x00, 0xFF, 0x00, 0xFF]⟩,
    ⟨.heartbeatIn,   [0xAA, 0x55, 0x00, 0x01, 0x00, 0x04], [0xFF, 0xFF, 0x00, 0xFF, 0x00, 0xFF]⟩,
    ⟨.any,           [0xAA, 0x55, 0x00, 0x00, 0x00, 0x00], [0xFF, 0xFF, 0x00, 0x00, 0x00, 0x00]⟩ ]

/-- The kind of a frame: the first row it fits; none without the sync header. -/
def classify (f : Frame) : Option FrameKind :=
  (frameRows.find? fun r => r.fits f).map FrameRow.kind

/-- The instruction that a group of bytes stands for. -/
def decodeGroup (bs : List Byte) : Except DecodeError Instr :=
  match frameOfBytes bs with
  | .error e => .error e
  | .ok f =>
    match classify f with
    | some k => .ok (k.instr f)
    | none => .error .badHeader

/-! ### Format OP -/

/-- The byte of a variant in a request (log 3). It is not the code of `CMD_CODE`, which is what goes on the wire. -/
def variantByte : Variant → Byte
  | .stop => 0
  | .forward => 1
  | .backward => 2
  | .turnLeft => 3
  | .turnRight => 4

/-- The variant that a byte of a request names (log 3). -/
def variantOfNat : Nat → Except DecodeError Variant
  | 0 => .ok .stop
  | 1 => .ok .forward
  | 2 => .ok .backward
  | 3 => .ok .turnLeft
  | 4 => .ok .turnRight
  | n => .error (.badVariant n)

/-- The operation with selector `op` (R71), its operands read from `bs`. Bytes after the last operand are not looked at. -/
def decodeOperands (op : Nat) (bs : List Byte) : Except DecodeError Instr :=
  match op with
  | 0 => do
    let (tx, r) ← takeNat 8 bs
    let (rx, _) ← takeNat 8 r
    return .reset (BitVec.ofNat 64 tx) (BitVec.ofNat 64 rx)
  | 1 => do
    let (id, r) ← takeNat 2 bs
    let (n, r) ← takeNat 1 r
    let (payload, _) ← takeBytes n r
    return .encode (BitVec.ofNat 16 id) payload
  | 2 => do
    let (group, _) ← takeBytes 20 bs
    return .decode (← frameOfBytes group)
  | 3 => do
    let (now, _) ← takeNat 8 bs
    return .hbTick (BitVec.ofNat 64 now)
  | 4 => do
    let (id, r) ← takeNat 2 bs
    let (now, _) ← takeNat 8 r
    return .hbRx (BitVec.ofNat 16 id) (BitVec.ofNat 64 now)
  | 5 => do
    let (now, _) ← takeNat 8 bs
    return .hbCheck (BitVec.ofNat 64 now)
  | 8 => do
    let (v, r) ← takeNat 1 bs
    let variant ← variantOfNat v
    let (speed, _) ← takeNat 4 r
    return .cmdEncode variant (BitVec.ofNat 32 speed)
  | 9 => return .estopEncode
  | 10 => do
    let (maxSpeed, r) ← takeNat 1 bs
    let (timeout, _) ← takeNat 2 r
    return .configEncode (BitVec.ofNat 8 maxSpeed) (BitVec.ofNat 16 timeout)
  | op => .error (.unassignedSelector op)

/-- The instruction that the bytes of a request stand for. The selector is bits 3..0 of the first byte; the table's mask
covers no other bit of it. -/
def decodeRequest : List Byte → Except DecodeError Instr
  | [] => .error .truncated
  | b :: bs => decodeOperands (b.extractLsb' 0 4).toNat bs

/-- The instruction that bytes of a format stand for: total on any bytes, rejecting by name. -/
def decode : Format → List Byte → Except DecodeError Instr
  | .op => decodeRequest
  | .f20 => decodeGroup

/-! ### The encoder -/

/-- The bytes of a well-formed instruction. -/
def encode : Instr → List Byte
  | .reset tx rx => 0x00 :: (beBytes 8 tx.toNat ++ beBytes 8 rx.toNat)
  | .encode id payload => 0x01 :: (beBytes 2 id.toNat ++ beBytes 1 payload.length ++ payload)
  | .decode f => 0x02 :: f.toList
  | .hbTick now => 0x03 :: beBytes 8 now.toNat
  | .hbRx id now => 0x04 :: (beBytes 2 id.toNat ++ beBytes 8 now.toNat)
  | .hbCheck now => 0x05 :: beBytes 8 now.toNat
  | .cmdEncode v speed => 0x08 :: variantByte v :: beBytes 4 speed.toNat
  | .estopEncode => [0x09]
  | .configEncode maxSpeed timeout => 0x0A :: maxSpeed :: beBytes 2 timeout.toNat
  | .frame f => f.toList
  | .frameMotorCmd f => f.toList
  | .frameEmergencyStop f => f.toList
  | .frameConfig f => f.toList
  | .frameHeartbeatOut f => f.toList
  | .frameHeartbeatIn f => f.toList

/-! ### Table words -/

/-- The format of a table word: one wider than a byte whose first two bytes are the sync header is a group, any other is a
request. (The OP rows have 4 bits, the F20 rows 20 bytes that begin AA 55.) -/
def tableFormat (nbits w : Nat) : Format :=
  if 8 < nbits ∧ w % 65536 = 0x55AA then .f20 else .op

/-- The bytes of the longest instruction of a format: an `ENCODE` request with 255 payload bytes, a group. -/
def Format.longest : Format → Nat
  | .op => 259
  | .f20 => 20

/-- The bytes of an instruction whose bits are `w`, with zeros after its `nbits` bits. -/
def tableBytes (nbits w : Nat) : List Byte :=
  leBytes (tableFormat nbits w).longest (w % 2 ^ nbits)

/-- The instruction this decoder reads from a word of the opcode table; none where it refuses. -/
def decodeTableWord (nbits w : Nat) : Option Instr :=
  (decode (tableFormat nbits w) (tableBytes nbits w)).toOption

end Sys2Proof
end

