-- ==== Sys2Proof/Machine/State.lean ====
section
/-!
DEFINITION. The state of the machine, as plain data: the block (`params`, `session`), its request interface (`answer`,
`requests`), the host's control loop (`phase`, `schedule`, `clock`), the transport (`transportOpens`, `transportOpen`,
`written`) and what the host hands on (`sink`, `log`). INVENTORY.md, State, lists each with its rule.
-/
namespace Sys2Proof.Machine

/-- The register `state` of the supervisor (spec/10_state.md R26, spec/41_heartbeat.md R110). -/
inductive HealthState where
  | unknown
  | healthy
  | unhealthy
deriving DecidableEq, Repr

/-- The HeartbeatState of one session (R23): three writable registers and the two constants latched by `RESET` (R28). -/
structure Session where
  lastTxTime : Timestamp
  lastRxTime : Timestamp
  state : HealthState
  txInterval : Timestamp
  rxTimeout : Timestamp
deriving DecidableEq, Repr

/-- The two errors `DECODE` raises (spec/60_exceptions.md R160, R161). -/
inductive FrameError where
  | invalidHeader
  | checksumMismatch
deriving DecidableEq, Repr

/-- The result of `DECODE` (R70, R95). -/
inductive DecodeResult where
  | ok (canId : CanId) (payload : List Byte)
  | err (kind : FrameError)
deriving DecidableEq, Repr

/-- What an operation answers (R70, the column of results). -/
inductive Answer where
  /-- `RESET`, `HB_RX`: no results. -/
  | done
  /-- `ENCODE`: the frame T. -/
  | frame (t : Frame)
  /-- `DECODE`. -/
  | decoded (r : DecodeResult)
  /-- `HB_TICK` with emit = 0. -/
  | quiet
  /-- `HB_TICK` with emit = 1: identifier and payload. -/
  | emit (canId : CanId) (payload : List Byte)
  /-- `HB_CHECK`: report. -/
  | report (b : Bool)
  /-- The payload encoders: identifier and payload. -/
  | message (canId : CanId) (payload : List Byte)
deriving DecidableEq, Repr

/-- Where the host's control loop stands (spec/43_control_loop.md R141, R147, R148). -/
inductive Phase where
  /-- Before the session: the transport is to be opened. -/
  | start
  /-- Step 1: receive. -/
  | receive
  /-- Step 2: `HB_TICK`. -/
  | tick
  /-- Step 3: `HB_CHECK`. -/
  | check
  /-- Step 4: command. -/
  | command
  /-- Step 5: sleep. -/
  | sleep
  /-- The session has ended, the transport is closed. -/
  | ended
  /-- The transport did not open: the process has exited. -/
  | exited
deriving DecidableEq, Repr

/-- A command event of the input collaborator: direction and speed (R13 (5), R141 step 4). -/
structure MotorCommand where
  variant : Variant
  speedPercent : Speed
deriving DecidableEq, Repr

/-- What the environment does in one iteration of the loop. -/
structure Iteration where
  /-- The shutdown flag, looked at before step 1 (R148, R175; log 9). -/
  shutdown : Bool
  /-- The bytes a transport read returned within its bounded timeout, if any (R142). -/
  group : Option (List Byte)
  /-- The clock samples of steps 1, 2 and 3 (R144). -/
  receiveNow : Timestamp
  tickNow : Timestamp
  checkNow : Timestamp
  /-- Whether the transport write of step 2, and that of step 4 or of the final Stop, succeeds (U14). -/
  heartbeatWriteOk : Bool
  commandWriteOk : Bool
  /-- The new command event of step 4, if any (R145). -/
  event : Option MotorCommand
deriving DecidableEq, Repr

/-- What the host logs: dropped frames, failed writes and a failed opening (R141 step 1, R147, R163, R165, R174), and, by the
model's choice, timeouts (log 16). -/
inductive LogEntry where
  | frameDropped (kind : FrameError)
  | writeFailed
  | timeoutReported
  | openFailed
deriving DecidableEq, Repr

/-- The whole machine. -/
structure State where
  /-- Implementation parameters (spec/00_scope.md R6): no operation writes them. -/
  params : Params
  /-- The supervisor's registers; none before the first `RESET` and after the session's end (R181, R148). -/
  session : Option Session
  /-- What the operation performed last answered: the interface's results line, no register of the block (R20; log 2). -/
  answer : Answer
  /-- Requests issued and not yet performed, oldest first, as bytes (log 3). -/
  requests : List (List Byte)
  phase : Phase
  /-- The coming iterations of the loop, the current one first (log 4). -/
  schedule : List Iteration
  /-- The host's latest clock sample (R12, R144; log 5). -/
  clock : Timestamp
  /-- Whether opening the transport will succeed (R147). -/
  transportOpens : Bool
  transportOpen : Bool
  /-- The frames the transport accepted, oldest first (R42, R149). -/
  written : List Frame
  /-- What the telemetry and log sink was handed, oldest first (R143). -/
  sink : List (CanId × List Byte)
  /-- What the host logged, oldest first. -/
  log : List LogEntry
deriving DecidableEq, Repr

/-- The machine never faults: "There is no behaviour in this block that a model should treat as `fault` or `stuck`"
(spec/93_implementation_defined.md). So no constructor: nothing raises one. -/
inductive Fault where
deriving DecidableEq, Repr

/-- Requests outside the specification (R167). All are safe: the model stops where the spec gives no meaning. -/
inductive Refusal where
  /-- An instruction without a meaning in this model: raised by no arm of `exec`. Safe. -/
  | notModelled (mnemonic : String)
  /-- `ENCODE` with `can_id > 0x7FF` or more than 8 payload bytes (R74, R92, U1). Raised by `ENCODE`. Safe. -/
  | encodePrecondition
  /-- A `now` below the timestamp register it is subtracted from (R111, U2). Raised by `HB_TICK` and `HB_CHECK`. Safe. -/
  | nonMonotonicNow
  /-- A supervisor operation without a session (R181, U4). Raised by `HB_TICK`, `HB_RX`, `HB_CHECK`. Safe. -/
  | noSession
  /-- A request whose selector names no operation (R71, R74, U3). Raised by the fetch of a request. Safe. -/
  | unassignedSelector (op : Nat)
  /-- Bytes that are no request in the model's operand layout (log 3). Raised by the fetch of a request. Safe. -/
  | malformedRequest
deriving DecidableEq, Repr

/-- The registers at the start of a session (spec/70_reset_and_hazards.md R180). -/
def Session.start (txInterval rxTimeout : Timestamp) : Session where
  lastTxTime := 0
  lastRxTime := 0
  state := .unknown
  txInterval := txInterval
  rxTimeout := rxTimeout

/-- The machine right after `RESET` with the default configuration (R33, R180), in the boot order of R182: the transport is
open and the loop is about to begin. The environment has nothing scheduled (log 4). -/
def State.reset : State where
  params := .default
  session := some (.start Params.default.txInterval Params.default.rxTimeout)
  answer := .done
  requests := []
  phase := .receive
  schedule := []
  clock := 0
  transportOpens := true
  transportOpen := true
  written := []
  sink := []
  log := []

/-- The machine before the first `RESET`: no session, the transport not yet open (R181, R182). -/
def State.beforeReset : State :=
  { State.reset with session := none, phase := .start, transportOpen := false }

/-! ### Updates, each with its lemmas in `Laws/State.lean` -/

def State.setSession (h : Option Session) (s : State) : State := { s with session := h }
def State.setAnswer (a : Answer) (s : State) : State := { s with answer := a }
def State.setRequests (rs : List (List Byte)) (s : State) : State := { s with requests := rs }
def State.setPhase (p : Phase) (s : State) : State := { s with phase := p }
def State.setSchedule (its : List Iteration) (s : State) : State := { s with schedule := its }
def State.setClock (t : Timestamp) (s : State) : State := { s with clock := t }
def State.setTransportOpen (b : Bool) (s : State) : State := { s with transportOpen := b }
def State.addWritten (t : Frame) (s : State) : State := { s with written := s.written ++ [t] }
def State.addSink (id : CanId) (payload : List Byte) (s : State) : State := { s with sink := s.sink ++ [(id, payload)] }
def State.addLog (e : LogEntry) (s : State) : State := { s with log := s.log ++ [e] }

end Sys2Proof.Machine
end

