-- ==== Sys2Proof/Machine/Flags.lean ====
section
/-!
DEFINITION. The one-bit conditions: the checksum and the two tests of `DECODE`, the output `healthy`, and the three
conditions of the supervisor.
-/
namespace Sys2Proof.Machine

/-- `CKSUM(B)`: bytes 0 to 18 summed as natural numbers, plus 1, modulo 256 (spec/40_frame_codec.md R90). -/
def cksum (f : Frame) : Byte := BitVec.ofNat 8 (((f.toList.take 19).map BitVec.toNat).sum + 1)

/-- The first test of `DECODE` (R95, spec/30_encoding.md R61). -/
def headerGood (f : Frame) : Bool := f[0] == Config.sync0 && f[1] == Config.sync1

/-- The second test of `DECODE` (R95). -/
def checksumGood (f : Frame) : Bool := cksum f == f[19]

/-- The output `healthy` of a session (spec/10_state.md R27, spec/41_heartbeat.md R118). -/
def Session.healthy (h : Session) : Bool := h.state == .healthy

/-- The continuous output `healthy` of the block; it has no value without a session (R27, R181). -/
def State.healthy (s : State) : Option Bool := s.session.map Session.healthy

/-- `now - last_tx_time >= TX_INTERVAL`, for a `now` not below `last_tx_time` (R112). -/
def Session.emitDue (h : Session) (now : Timestamp) : Bool :=
  decide (h.txInterval.toNat ≤ now.toNat - h.lastTxTime.toNat)

/-- `armed` (R116). -/
def Session.armed (h : Session) : Bool :=
  h.state == .healthy || (h.state == .unknown && decide (0 < h.lastRxTime.toNat))

/-- `now - last_rx_time > RX_TIMEOUT`, for a `now` not below `last_rx_time` (R116). -/
def Session.silent (h : Session) (now : Timestamp) : Bool :=
  decide (h.rxTimeout.toNat < now.toNat - h.lastRxTime.toNat)

end Sys2Proof.Machine
end

