-- ==== Sys2Proof/Machine/Operands.lean ====
section
/-!
DEFINITION. Operand assembly (spec/30_encoding.md R72) and the byte primitives of spec/00_scope.md R11.
-/
namespace Sys2Proof.Machine

/-- `v[15:8]` (R9). -/
def hiByte (v : BitVec 16) : Byte := v.extractLsb' 8 8

/-- `v[7:0]` (R9). -/
def loByte (v : BitVec 16) : Byte := v.extractLsb' 0 8

/-- `(zext_16(hi) << 8) | zext_16(lo)`: nothing is masked or range-checked (R62). -/
def joinId (hi lo : Byte) : CanId := (hi.setWidth 16 <<< 8) ||| lo.setWidth 16

/-- `min(F[9], 8)` (R63, R72 (b)). -/
def clampDlc (dlc : Byte) : Nat := min dlc.toNat Config.maxDlc

/-- `MemRead(F, a, n)` (R11). -/
def memRead (f : Frame) (a n : Nat) : List Byte := (f.toList.drop a).take n

/-- Slot `i` of the payload window: the payload's byte, or 0x00 beyond its end (R63). -/
def slot (payload : List Byte) (i : Nat) : Byte := payload.getD i 0x00

/-- `min(max(speed, 0), 100)` with a signed comparison, then bits 7..0 (R72 (c), R131). -/
def clampSpeed (speed : Speed) : Byte := BitVec.ofInt 8 (min (max speed.toInt 0) 100)

/-- `CMD_CODE[variant]` (R132). -/
def cmdCode (codes : CmdCodes) : Variant → Byte
  | .stop => codes.stop
  | .forward => codes.forward
  | .backward => codes.backward
  | .turnLeft => codes.turnLeft
  | .turnRight => codes.turnRight

/-- `HB_DLC` bytes of 0x00 (R112). -/
def zeroPayload (p : Params) : List Byte := List.replicate p.hbDlc.val 0x00

/-- The status code of a decode outcome (spec/60_exceptions.md R161). -/
def DecodeResult.status : DecodeResult → Nat
  | .ok _ _ => 0
  | .err .invalidHeader => 1
  | .err .checksumMismatch => 2

/-- The 2-bit number of a health state (spec/10_state.md R26). -/
def HealthState.number : HealthState → BitVec 2
  | .unknown => 0
  | .healthy => 1
  | .unhealthy => 2

end Sys2Proof.Machine
end

