-- ==== Sys2Proof/Machine/Ops.lean ====
section
/-!
DEFINITION. The operations the meanings share: answering, the session check, building and parsing a frame, raising and
handling a `FrameError`, noting a heartbeat, receiving a frame.
-/
namespace Sys2Proof.Machine

/-- The outcome of an operation. -/
abbrev Result := Host.Outcome State Fault Refusal

/-- Do `k` after an operation that answered a next state. -/
def andThen (o : Result) (k : State → Result) : Result :=
  match o with
  | .next s => k s
  | .fault r => .fault r
  | .refused r => .refused r

/-- The operation ends with these results and writes nothing else (R70). -/
def reply (a : Answer) (s : State) : Result := .next (s.setAnswer a)

/-- Supervisor operations need a session: without one the registers have no value (spec/70_reset_and_hazards.md R181, U4). -/
def withSession (s : State) (k : Session → Result) : Result :=
  match s.session with
  | none => .refused .noSession
  | some h => k h

/-! ### The codec -/

/-- The precondition of `ENCODE` (R92, R74). -/
def encodable (id : CanId) (payload : List Byte) : Bool :=
  decide (id.toNat ≤ Config.idMax) && decide (payload.length ≤ Config.maxDlc)

/-- The bytes `ENCODE` writes before the checksum, byte 19 still 0x00 (R92, R60). -/
def frameBody (p : Params) (id : CanId) (payload : List Byte) : Frame :=
  #v[Config.sync0, Config.sync1, p.rsv2, hiByte id, p.rsv4, loByte id, p.rsv6, p.rsv7, p.rsv8,
     BitVec.ofNat 8 payload.length,
     slot payload 0, slot payload 1, slot payload 2, slot payload 3,
     slot payload 4, slot payload 5, slot payload 6, slot payload 7,
     p.rsv18, 0x00]

/-- The frame `ENCODE` builds: `T[19] <- CKSUM(T)` over bytes 0 to 18 as just written (R92). -/
def buildFrame (p : Params) (id : CanId) (payload : List Byte) : Frame :=
  (frameBody p id payload).set 19 (cksum (frameBody p id payload))

/-- `DECODE`: header, then checksum, then the fields (R95, R162). -/
def parseFrame (f : Frame) : DecodeResult :=
  if headerGood f then
    if checksumGood f then .ok (joinId f[3] f[5]) (memRead f 10 (clampDlc f[9]))
    else .err .checksumMismatch
  else .err .invalidHeader

/-! ### A `FrameError`: taking it, and what follows it -/

/-- `raise FrameError(kind)`: the kind is answered in place of the results; no register is written, nothing is latched, no
state is saved (spec/60_exceptions.md R160, R163). -/
def raiseFrameError (kind : FrameError) (s : State) : State := s.setAnswer (.decoded (.err kind))

/-- What the host does on a `FrameError`, and no more: discard, log, go on (R163). There is nothing to restore (R164). -/
def dropAndLog (kind : FrameError) (s : State) : State := s.addLog (.frameDropped kind)

/-- `DECODE` as an operation: its result is answered, its errors raised (R95). -/
def decodeOp (f : Frame) (s : State) : Result :=
  match parseFrame f with
  | .err kind => .next (raiseFrameError kind s)
  | .ok id payload => reply (.decoded (.ok id payload)) s

/-! ### The supervisor -/

/-- Noting a received identifier: only `HEARTBEAT_IN`, all 16 bits compared, has an effect (spec/41_heartbeat.md R114). -/
def noteReceive (id : CanId) (now : Timestamp) (s : State) : Result :=
  withSession s fun h =>
    if id = Config.heartbeatIn then
      .next ((s.setSession (some { h with lastRxTime := now, state := .healthy })).setAnswer .done)
    else reply .done s

/-! ### Messages -/

/-- The answer of a payload encoder: identifier and 8 payload bytes (spec/42_command_payloads.md R136). -/
def message (id : CanId) (b0 b1 b2 : Byte) (s : State) : Result :=
  reply (.message id [b0, b1, b2, 0x00, 0x00, 0x00, 0x00, 0x00]) s

/-! ### A received frame -/

/-- Routing after a successful `DECODE`: `HEARTBEAT_IN` to the supervisor with the host's clock sample, anything else to the
sink (spec/43_control_loop.md R143). -/
def route (id : CanId) (payload : List Byte) (s : State) : Result :=
  if id = Config.heartbeatIn then noteReceive id s.clock s else .next (s.addSink id payload)

/-- What `TRY_RECEIVE` makes of an available frame (spec/30_encoding.md R76): `DECODE` it; the pair on `Ok`, and on `Err`
the frame is dropped and logged and the result is none. It routes nothing and needs no session. -/
def tryReceiveFrame (f : Frame) (s : State) : Option (CanId × List Byte) × State :=
  match parseFrame f with
  | .err kind => (none, dropAndLog kind (raiseFrameError kind s))
  | .ok id payload => (some (id, payload), s.setAnswer (.decoded (.ok id payload)))

/-- What step 1 of the loop does with the result of `TRY_RECEIVE`: route a pair, go on without one (R141, R143). -/
def routeReceived : Option (CanId × List Byte) × State → Result
  | (none, s) => .next s
  | (some (id, payload), s) => route id payload s

/-- Step 1 of the loop for an available frame: receive it and route what it holds (R141). -/
def receiveFrame (f : Frame) (s : State) : Result := routeReceived (tryReceiveFrame f s)

end Sys2Proof.Machine
end

