-- ==== Sys2Proof/Machine/Codec.lean ====
section
/-!
DEFINITION. The frame codec: `ENCODE`, `DECODE` (spec/40_frame_codec.md). Neither reads or writes a register (R22).
-/
namespace Sys2Proof.Machine

/-- `ENCODE can_id, payload => T` (R92): refused outside its precondition, never truncated (R93 (g)). -/
def execEncode (id : CanId) (payload : List Byte) (s : State) : Result :=
  if encodable id payload then reply (.frame (buildFrame s.params id payload)) s
  else .refused .encodePrecondition

/-- `DECODE F => Ok(can_id, payload) | Err(kind)` (R95): total (R97). -/
def execDecode (f : Frame) (s : State) : Result := decodeOp f s

end Sys2Proof.Machine
end

