-- ==== Sys2Proof/Machine/Command.lean ====
section
/-!
DEFINITION. The command payload encoders: `CMD_ENCODE`, `ESTOP_ENCODE`, `CONFIG_ENCODE` (spec/42_command_payloads.md).
None reads or writes a register.
-/
namespace Sys2Proof.Machine

/-- The speed byte: 0 for Stop whatever the operand, else the clamped operand (R131). -/
def speedByte : Variant → Speed → Byte
  | .stop, _ => 0x00
  | .forward, v => clampSpeed v
  | .backward, v => clampSpeed v
  | .turnLeft, v => clampSpeed v
  | .turnRight, v => clampSpeed v

/-- `CMD_ENCODE variant, speed_percent => can_id, payload` (R131). -/
def execCmdEncode (variant : Variant) (speedPercent : Speed) (s : State) : Result :=
  message Config.motorCmd (cmdCode s.params.cmdCodes variant) (speedByte variant speedPercent) 0x00 s

/-- `ESTOP_ENCODE => can_id, payload` (R134). -/
def execEstopEncode (s : State) : Result := message Config.emergencyStop 0xFF 0x00 0x00 s

/-- `CONFIG_ENCODE max_speed, timeout_ms => can_id, payload` (R135): no clamp, high byte first. -/
def execConfigEncode (maxSpeed : Byte) (timeoutMs : TimeoutMs) (s : State) : Result :=
  message Config.configFrame maxSpeed (hiByte timeoutMs) (loByte timeoutMs) s

end Sys2Proof.Machine
end

