-- ==== Sys2Proof/Machine/Frames.lean ====
section
/-!
DEFINITION. The frame kinds of spec/30_encoding.md R69, as instructions: the host receives such a frame in step 1 of its
loop (spec/43_control_loop.md R141, R143; log 1). The routing looks at the decoded identifier, so a kind decides nothing by
itself: only an accepted frame with identifier 0x104 reaches the supervisor.
-/
namespace Sys2Proof.Machine

/-- A frame with a good header and no named identifier: to the sink (R143, R73). -/
def execFrame (f : Frame) (s : State) : Result := receiveFrame f s

/-- A frame with identifier 0x100: to the sink (R143). -/
def execFrameMotorCmd (f : Frame) (s : State) : Result := receiveFrame f s

/-- A frame with identifier 0x101: to the sink (R143). -/
def execFrameEmergencyStop (f : Frame) (s : State) : Result := receiveFrame f s

/-- A frame with identifier 0x102: to the sink (R143). -/
def execFrameConfig (f : Frame) (s : State) : Result := receiveFrame f s

/-- A frame with identifier 0x103: to the sink; the block's own heartbeat is no receive (R143, R115 (b)). -/
def execFrameHeartbeatOut (f : Frame) (s : State) : Result := receiveFrame f s

/-- A frame with identifier 0x104: `HB_RX` with the host's clock sample, and not the sink (R143). -/
def execFrameHeartbeatIn (f : Frame) (s : State) : Result := receiveFrame f s

end Sys2Proof.Machine
end

