-- ==== Sys2Proof/Machine/Heartbeat.lean ====
section
/-!
DEFINITION. The heartbeat supervisor: `RESET` (spec/70_reset_and_hazards.md R180), `HB_TICK`, `HB_RX`, `HB_CHECK`
(spec/41_heartbeat.md).
-/
namespace Sys2Proof.Machine

/-- `RESET configuration`: session start (R180). It writes every register and nothing else. -/
def execReset (txInterval rxTimeout : Timestamp) (s : State) : Result :=
  .next ((s.setSession (some (.start txInterval rxTimeout))).setAnswer .done)

/-- `HB_TICK now => emit [, can_id, payload]` (R112). -/
def execHbTick (now : Timestamp) (s : State) : Result :=
  withSession s fun h =>
    if now.toNat < h.lastTxTime.toNat then .refused .nonMonotonicNow
    else if h.emitDue now then
      .next ((s.setSession (some { h with lastTxTime := now })).setAnswer
        (.emit Config.heartbeatOut (zeroPayload s.params)))
    else reply .quiet s

/-- `HB_RX can_id, now` (R114). -/
def execHbRx (id : CanId) (now : Timestamp) (s : State) : Result := noteReceive id now s

/-- `HB_CHECK now => report` (R116). -/
def execHbCheck (now : Timestamp) (s : State) : Result :=
  withSession s fun h =>
    if h.armed then
      if now.toNat < h.lastRxTime.toNat then .refused .nonMonotonicNow
      else if h.silent now then
        .next ((s.setSession (some { h with state := .unhealthy, lastRxTime := 0 })).setAnswer (.report true))
      else reply (.report false) s
    else reply (.report false) s

end Sys2Proof.Machine
end

