-- ==== Sys2Proof/Machine/Dispatch.lean ====
section
/-!
DEFINITION. One arm for each constructor of `Instr`.
-/
namespace Sys2Proof.Machine

def exec (i : Instr) (s : State) : Host.Outcome State Fault Refusal :=
  match i with
  | .reset txInterval rxTimeout => Sys2Proof.Machine.execReset txInterval rxTimeout s
  | .encode canId payload => Sys2Proof.Machine.execEncode canId payload s
  | .decode f => Sys2Proof.Machine.execDecode f s
  | .hbTick now => Sys2Proof.Machine.execHbTick now s
  | .hbRx canId now => Sys2Proof.Machine.execHbRx canId now s
  | .hbCheck now => Sys2Proof.Machine.execHbCheck now s
  | .cmdEncode variant speedPercent => Sys2Proof.Machine.execCmdEncode variant speedPercent s
  | .estopEncode => Sys2Proof.Machine.execEstopEncode s
  | .configEncode maxSpeed timeoutMs => Sys2Proof.Machine.execConfigEncode maxSpeed timeoutMs s
  | .frame f => Sys2Proof.Machine.execFrame f s
  | .frameMotorCmd f => Sys2Proof.Machine.execFrameMotorCmd f s
  | .frameEmergencyStop f => Sys2Proof.Machine.execFrameEmergencyStop f s
  | .frameConfig f => Sys2Proof.Machine.execFrameConfig f s
  | .frameHeartbeatOut f => Sys2Proof.Machine.execFrameHeartbeatOut f s
  | .frameHeartbeatIn f => Sys2Proof.Machine.execFrameHeartbeatIn f s

end Sys2Proof.Machine
end

