-- ==== Sys2Proof/Machine/Loop.lean ====
section
/-!
DEFINITION. The host around the block: performing one request, the pseudo-operations of spec/30_encoding.md R76, and the
control loop of spec/43_control_loop.md, one of its steps at a time (log 7).
-/
namespace Sys2Proof.Machine

/-! ### Requests -/

/-- Why a request that is no instruction is refused (R74, U3). -/
def refusalOf : DecodeError → Refusal
  | .unassignedSelector op => .unassignedSelector op
  | .truncated => .malformedRequest
  | .badVariant _ => .malformedRequest
  | .badHeader => .malformedRequest
  | .badLength => .malformedRequest

/-- Perform the operation a request names (R70). Its results go to `answer` and nowhere else: what an `ENCODE` request answers
is not written to the transport (log 15). -/
def performRequest (bs : List Byte) (s : State) : Result :=
  match decode .op bs with
  | .ok i => exec i s
  | .error e => .refused (refusalOf e)

/-! ### The transport and the pseudo-operations -/

/-- The host writes 20 bytes. A write that fails is logged and not retried (R165 (a), U14); a write to a transport that is
not open fails (log 6). -/
def transportWrite (writeOk : Bool) (t : Frame) (s : State) : State :=
  if s.transportOpen && writeOk then s.addWritten t else s.addLog .writeFailed

/-- `SEND can_id, payload` (R76): `ENCODE`, then write what it answered. -/
def send (writeOk : Bool) (id : CanId) (payload : List Byte) (s : State) : Result :=
  andThen (exec (.encode id payload) s) fun s1 =>
    match s1.answer with
    | .frame t => .next (transportWrite writeOk t s1)
    | _ => .next s1

/-- Send the message a payload encoder answered. -/
def sendMessage (writeOk : Bool) (s : State) : Result :=
  match s.answer with
  | .message id payload => send writeOk id payload s
  | _ => .next s

/-- `SEND_CMD variant, speed` (R76). -/
def sendCmd (writeOk : Bool) (c : MotorCommand) (s : State) : Result :=
  andThen (exec (.cmdEncode c.variant c.speedPercent) s) (sendMessage writeOk)

/-- `SEND_STOP` (R76). -/
def sendStop (writeOk : Bool) (s : State) : Result := sendCmd writeOk ⟨.stop, 0⟩ s

/-- `SEND_ESTOP` (R76). The loop never issues it. -/
def sendEstop (writeOk : Bool) (s : State) : Result := andThen (exec .estopEncode s) (sendMessage writeOk)

/-- `SEND_CONFIG max_speed, timeout_ms` (R76). The loop never issues it. -/
def sendConfig (writeOk : Bool) (maxSpeed : Byte) (timeoutMs : TimeoutMs) (s : State) : Result :=
  andThen (exec (.configEncode maxSpeed timeoutMs) s) (sendMessage writeOk)

/-- `SEND_HEARTBEAT` (R76): issued when `HB_TICK` answered emit = 1. -/
def sendHeartbeat (writeOk : Bool) (s : State) : Result :=
  match s.answer with
  | .emit id payload => send writeOk id payload s
  | _ => .next s

/-! ### The loop -/

/-- `TRY_RECEIVE` (R76), given what a transport read returned: a frame is available when it returned exactly 20 bytes (R142);
any other read is "no frame available", and the result is none. -/
def tryReceive (group : Option (List Byte)) (s : State) : Option (CanId × List Byte) × State :=
  match group with
  | none => (none, s)
  | some bs =>
    match frameOfBytes bs with
    | .ok f => tryReceiveFrame f s
    | .error _ => (none, s)

/-- What a group that a read returned does: an instruction of format F20 is performed; any other group is one that
`TRY_RECEIVE` answers none for (a bad header, R96, or another length than 20, R142). -/
def receiveGroup (bs : List Byte) (s : State) : Result :=
  match decode .f20 bs with
  | .ok i => exec i s
  | .error _ => routeReceived (tryReceive (some bs) s)

/-- Step 1: receive, with this iteration's clock sample (R141, R144). -/
def receivePhase (it : Iteration) (s : State) : Result :=
  match it.group with
  | none => .next (s.setClock it.receiveNow)
  | some bs => receiveGroup bs (s.setClock it.receiveNow)

/-- Step 2: `HB_TICK`, and the heartbeat it asks for (R141). -/
def tickPhase (it : Iteration) (s : State) : Result :=
  andThen (exec (.hbTick it.tickNow) (s.setClock it.tickNow)) (sendHeartbeat it.heartbeatWriteOk)

/-- Step 3: `HB_CHECK` (R141). The host may log a report or pass it to telemetry (R116, R150, R166); that it is always logged, and
nothing is handed to the sink, is the model's choice (DESIGN CHOICE, log 16). -/
def checkPhase (it : Iteration) (s : State) : Result :=
  andThen (exec (.hbCheck it.checkNow) (s.setClock it.checkNow)) fun s1 =>
    .next (if s1.answer = .report true then s1.addLog .timeoutReported else s1)

/-- Step 4: a new command event, if there is one (R141, R145). Its frames carry 0x100, those of step 2 carry 0x103, and the loop
sends no other identifier: R150 leaves that to the host (log 15). -/
def commandPhase (it : Iteration) (s : State) : Result :=
  match it.event with
  | none => .next s
  | some c => sendCmd it.commandWriteOk c s

/-- Session start: open the transport, then `RESET` with the configured intervals; a failure to open is fatal and the block
is never reset (R147, R165 (b), R182). -/
def startPhase (s : State) : Result :=
  if s.transportOpens then
    andThen (exec (.reset s.params.txInterval s.params.rxTimeout) (s.setTransportOpen true)) fun s1 =>
      .next (s1.setPhase .receive)
  else .next ((s.addLog .openFailed).setPhase .exited)

/-- Session end: one final Stop, then the transport is closed and the HeartbeatState discarded (R148). -/
def endSession (it : Iteration) (s : State) : Result :=
  andThen (sendStop it.commandWriteOk s) fun s1 =>
    .next (((s1.setTransportOpen false).setSession none).setPhase .ended)

/-- One step of an iteration whose environment is `it`, `rest` being the iterations after it (R141). -/
def iterationStep (it : Iteration) (rest : List Iteration) (s : State) : Result :=
  match s.phase with
  | .receive =>
    if it.shutdown then andThen (endSession it s) fun s1 => .next (s1.setSchedule rest)
    else andThen (receivePhase it s) fun s1 => .next (s1.setPhase .tick)
  | .tick => andThen (tickPhase it s) fun s1 => .next (s1.setPhase .check)
  | .check => andThen (checkPhase it s) fun s1 => .next (s1.setPhase .command)
  | .command => andThen (commandPhase it s) fun s1 => .next (s1.setPhase .sleep)
  | .sleep => .next ((s.setSchedule rest).setPhase .receive)
  | .start => .next s
  | .ended => .next s
  | .exited => .next s

/-- One step of the host. Before the start it opens the session; after the end, and with nothing scheduled, it issues no
operation and nothing changes (R29, R175). -/
def loopStep (s : State) : Result :=
  match s.phase, s.schedule with
  | .start, _ => startPhase s
  | _, it :: rest => iterationStep it rest s
  | _, [] => .next s

end Sys2Proof.Machine
end

