-- ==== Sys2Proof/Machine/Step.lean ====
section
/-!
DEFINITION. One step of the machine: the oldest request, or, with none waiting, one step of the control loop (log 7).
-/
namespace Sys2Proof.Machine

/-- One step. A request leaves the list as it is performed. -/
def step (s : State) : Host.Outcome State Fault Refusal :=
  match s.requests with
  | bs :: rest => performRequest bs (s.setRequests rest)
  | [] => loopStep s

/-- An iteration in which nothing happens but the arrival of a group, at the host's present clock sample. -/
def arrival (bs : List Byte) (s : State) : Iteration where
  shutdown := false
  group := some bs
  receiveNow := s.clock
  tickNow := s.clock
  checkNow := s.clock
  heartbeatWriteOk := true
  commandWriteOk := true
  event := none

/-- `s` with a table word placed where the next step fetches: a request becomes the oldest request; a group becomes the
group that the loop's step 1 reads next, with no request before it (log 10). -/
def State.withFetchWord (s : State) (nbits w : Nat) : State :=
  match tableFormat nbits w with
  | .op => { s with requests := tableBytes nbits w :: s.requests }
  | .f20 =>
    { s with requests := [], phase := .receive, schedule := arrival (tableBytes nbits w) s :: s.schedule }

end Sys2Proof.Machine
end

