-- ==== Sys2Proof/Safety.lean ====
section
/-!
DEFINITION. What the statements call a good state: the invariants of the spec, the host's duties (spec/43_control_loop.md
R150), and running a list of operations.
-/
namespace Sys2Proof.Machine

/-- R30 (a) and (b) of spec/10_state.md: `Unknown` and `Unhealthy` each imply `last_rx_time = 0`. -/
abbrev Session.Inv (h : Session) : Prop :=
  (h.state = .unknown → h.lastRxTime = 0) ∧ (h.state = .unhealthy → h.lastRxTime = 0)

/-- The sum of bytes 0 to 18 over the natural numbers (spec/40_frame_codec.md R90). -/
def byteSum (f : Frame) : Nat :=
  f[0].toNat + f[1].toNat + f[2].toNat + f[3].toNat + f[4].toNat + f[5].toNat + f[6].toNat + f[7].toNat + f[8].toNat +
  f[9].toNat + f[10].toNat + f[11].toNat + f[12].toNat + f[13].toNat + f[14].toNat + f[15].toNat + f[16].toNat +
  f[17].toNat + f[18].toNat

/-- The properties that spec/40_frame_codec.md R94 gives every frame `ENCODE` returns. -/
abbrev IsEncoded (f : Frame) : Prop :=
  f[0] = 0xAA ∧ f[1] = 0x55 ∧ f[3].toNat ≤ 7 ∧ f[9].toNat ≤ 8 ∧
  (∀ i < 8, f[9].toNat ≤ i → f[10 + i]? = some 0x00) ∧ f[19] = cksum f

/-- `CMD_CODE` is injective (spec/42_command_payloads.md R132). -/
abbrev codesInjective (c : CmdCodes) : Prop :=
  [c.stop, c.forward, c.backward, c.turnLeft, c.turnRight].Nodup

/-- `ENCODE`'s precondition, which the caller guarantees (R92, R150). -/
abbrev Legal (id : CanId) (payload : List Byte) : Prop := id.toNat ≤ 0x7FF ∧ payload.length ≤ 8

/-- The loop is between its start and its end. -/
def Phase.running : Phase → Bool
  | .start => false
  | .receive => true
  | .tick => true
  | .check => true
  | .command => true
  | .sleep => true
  | .ended => false
  | .exited => false

/-- The invariant of the machine: R30 for the session; an injective code table (R132); the transport is open exactly while the
loop runs (R147, R148); the loop runs only with a session (R150); and every frame on the wire is one that `ENCODE` returns
(R94). -/
abbrev State.Inv (s : State) : Prop :=
  (∀ h ∈ s.session, h.Inv) ∧ codesInjective s.params.cmdCodes ∧ s.transportOpen = s.phase.running ∧
  (s.phase.running = true → s.session.isSome = true) ∧ (∀ f ∈ s.written, IsEncoded f)

/-- The clock samples of an iteration, in the order the loop takes them (R144). -/
def Iteration.samples (it : Iteration) : List Timestamp := [it.receiveNow, it.tickNow, it.checkNow]

/-- The clock samples still to be taken. -/
def pendingSamples : Phase → List Iteration → List Timestamp
  | _, [] => []
  | .tick, it :: rest => it.tickNow :: it.checkNow :: rest.flatMap Iteration.samples
  | .check, it :: rest => it.checkNow :: rest.flatMap Iteration.samples
  | .command, _ :: rest => rest.flatMap Iteration.samples
  | .sleep, _ :: rest => rest.flatMap Iteration.samples
  | .start, its => its.flatMap Iteration.samples
  | .receive, its => its.flatMap Iteration.samples
  | .ended, its => its.flatMap Iteration.samples
  | .exited, its => its.flatMap Iteration.samples

/-- The host keeps its duties (R150): the loop alone issues operations; the clock samples never decrease from the present one
on (R111); and the timestamps the block holds are samples already taken. -/
abbrev State.Dutiful (s : State) : Prop :=
  s.requests = [] ∧
  ((s.clock :: pendingSamples s.phase s.schedule).map BitVec.toNat).Pairwise (· ≤ ·) ∧
  (∀ h ∈ s.session, h.lastTxTime.toNat ≤ s.clock.toNat ∧ h.lastRxTime.toNat ≤ s.clock.toNat)

/-- The 4-bit selector of a request, bits 3..0 of its first byte (spec/30_encoding.md R71). -/
def opField (i : Instr) : Option Nat := (encode i).head?.map fun b => b.toNat % 16

/-- Operations issued one after the other (spec/20_memory.md R50). -/
def performAll : List Instr → State → Result
  | [], s => .next s
  | i :: is, s => andThen (exec i s) (performAll is)

/-- The operation or received frame notes a heartbeat: `HB_RX` with 0x104, or a frame that decodes to 0x104 (R114, R143). -/
def notesHeartbeat : Instr → Bool
  | .hbRx id _ => id == Config.heartbeatIn
  | .frame f => isHeartbeat f
  | .frameMotorCmd f => isHeartbeat f
  | .frameEmergencyStop f => isHeartbeat f
  | .frameConfig f => isHeartbeat f
  | .frameHeartbeatOut f => isHeartbeat f
  | .frameHeartbeatIn f => isHeartbeat f
  | .reset _ _ => false
  | .encode _ _ => false
  | .decode _ => false
  | .hbTick _ => false
  | .hbCheck _ => false
  | .cmdEncode _ _ => false
  | .estopEncode => false
  | .configEncode _ _ => false
where
  /-- The frame is accepted and its identifier is 0x104. -/
  isHeartbeat (f : Frame) : Bool :=
    match parseFrame f with
    | .ok id _ => id == Config.heartbeatIn
    | .err _ => false

end Sys2Proof.Machine
end

