-- ==== Sys2Proof/Certificates/Slice0/Obligations.lean ====
section
/-!
DEFINITION. The statements for the provers. Each docstring names the rule of spec/ it formalises. `{ s with … }` names every
field that may differ, so an equation with it is the frame as well: whatever is not named is unchanged. What an operation returns is read from the field `answer` (log 2). Statements about a step
of the loop rest on the model's places for the host's side (logs 4, 6, 7, 9, 16).
-/
open Sys2Proof Sys2Proof.Machine

/-! ### The checksum -/

/-- spec/40_frame_codec.md R90. -/
def Obligations.CksumIsTheByteSumPlusOne : Prop :=
  ∀ f : Frame, (cksum f).toNat = (byteSum f + 1) % 256

/-- spec/40_frame_codec.md R91, (a) to (f): an 8-bit adder started at 1, and the size of the unbounded sum; the wrap; the
zero frame; one changed byte; changes that cancel, an exchange among them; byte 19. -/
def Obligations.CksumArithmeticLaws : Prop :=
  (∀ f : Frame, cksum f = (f.toList.take 19).foldl (fun a b => a + b) 1 ∧ byteSum f + 1 ≤ 4846) ∧
  (∀ f : Frame, byteSum f % 256 = 255 → cksum f = 0x00) ∧
  (cksum (Vector.replicate 20 0x00) = 0x01) ∧
  (∀ (f : Frame) (i : Fin 20) (v : Byte), i.val < 19 → v ≠ f[i] → cksum (f.set i v) ≠ cksum f) ∧
  (∀ f g : Frame, byteSum f % 256 = byteSum g % 256 → cksum f = cksum g) ∧
  (∀ (f : Frame) (i j : Fin 20), i.val < 19 → j.val < 19 → cksum ((f.set i f[j]).set j f[i]) = cksum f) ∧
  (∀ (f : Frame) (v : Byte), cksum (f.set 19 v) = cksum f)

/-! ### ENCODE and DECODE -/

/-- spec/40_frame_codec.md R92: the layout, the refusal, the selector, the worked example. Nothing but the answer changes. -/
def Obligations.EncodeBuildsTheFrame : Prop :=
  (∀ (s : State) (id : CanId) (p : List Byte), Legal id p →
    ∃ t : Frame, exec (.encode id p) s = .next { s with answer := .frame t } ∧
      t[0] = 0xAA ∧ t[1] = 0x55 ∧ t[2] = s.params.rsv2 ∧ t[3].toNat = id.toNat / 256 ∧ t[4] = s.params.rsv4 ∧
      t[5].toNat = id.toNat % 256 ∧ t[6] = s.params.rsv6 ∧ t[7] = s.params.rsv7 ∧ t[8] = s.params.rsv8 ∧
      t[9].toNat = p.length ∧
      (∀ i < p.length, t[10 + i]? = p[i]?) ∧ (∀ i < 8, p.length ≤ i → t[10 + i]? = some 0x00) ∧
      t[18] = s.params.rsv18 ∧ t[19].toNat = (byteSum t + 1) % 256) ∧
  (∀ (s : State) (id : CanId) (p : List Byte), ¬ Legal id p →
    exec (.encode id p) s = .refused .encodePrecondition) ∧
  (∀ (id : CanId) (p : List Byte), opField (.encode id p) = some 1) ∧
  (∀ s : State, s.params = .default →
    exec (.encode 0x100 [0x03, 0x32, 0, 0, 0, 0, 0, 0]) s = .next { s with
      answer := .frame
        #v[0xAA, 0x55, 0x01, 0x01, 0x01, 0x00, 0x01, 0x00, 0x00, 0x08,
           0x03, 0x32, 0x00, 0x00, 0x00, 0x00, 0x00, 0x00, 0x00, 0x41] })

/-- spec/40_frame_codec.md R94: what every encoded frame satisfies, and `ENCODE` is injective on its legal operands. -/
def Obligations.EncodedFramesAreDistinctAndWellMade : Prop :=
  (∀ (s : State) (id : CanId) (p : List Byte), Legal id p →
    ∃ t : Frame, exec (.encode id p) s = .next { s with answer := .frame t } ∧ IsEncoded t ∧
      t[3].toNat * 256 + t[5].toNat = id.toNat) ∧
  (∀ (s s' : State) (id id' : CanId) (p p' : List Byte) (t t' : Frame), s.params = s'.params →
    Legal id p → Legal id' p' → (id, p) ≠ (id', p') →
    exec (.encode id p) s = .next { s with answer := .frame t } →
    exec (.encode id' p') s' = .next { s' with answer := .frame t' } →
    ∃ k ∈ [3, 5, 9, 10, 11, 12, 13, 14, 15, 16, 17], t[k]? ≠ t'[k]?)

/-- spec/40_frame_codec.md R95: header first, checksum second, then the fields; the selector, the worked example. Nothing but
the answer changes, on success or on failure. -/
def Obligations.DecodeTestsHeaderThenChecksum : Prop :=
  (∀ (s : State) (f : Frame), f[0] ≠ 0xAA ∨ f[1] ≠ 0x55 →
    exec (.decode f) s = .next { s with answer := .decoded (.err .invalidHeader) }) ∧
  (∀ (s : State) (f : Frame), f[0] = 0xAA → f[1] = 0x55 → f[19].toNat ≠ (byteSum f + 1) % 256 →
    exec (.decode f) s = .next { s with answer := .decoded (.err .checksumMismatch) }) ∧
  (∀ (s : State) (f : Frame), f[0] = 0xAA → f[1] = 0x55 → f[19].toNat = (byteSum f + 1) % 256 →
    ∃ (id : CanId) (p : List Byte), exec (.decode f) s = .next { s with answer := .decoded (.ok id p) } ∧
      id.toNat = f[3].toNat * 256 + f[5].toNat ∧ p.length = min f[9].toNat 8 ∧
      ∀ i < p.length, p[i]? = f[10 + i]?) ∧
  (∀ f : Frame, opField (.decode f) = some 2) ∧
  (∀ s : State, exec (.decode
      #v[0xAA, 0x55, 0x01, 0x01, 0x01, 0x00, 0x01, 0x00, 0x00, 0x08,
         0x03, 0x32, 0x00, 0x00, 0x00, 0x00, 0x00, 0x00, 0x00, 0x41]) s =
    .next { s with answer := .decoded (.ok 0x0100 [0x03, 0x32, 0, 0, 0, 0, 0, 0]) })

/-- spec/40_frame_codec.md R98: the round trip, whatever the parameters of the two states; and the opposite composition, refused
for an identifier above 0x7FF, and otherwise free to differ in a reserved byte, in byte 9 and in the filler. -/
def Obligations.DecodeUndoesEncode : Prop :=
  (∀ (s s' : State) (id : CanId) (p : List Byte), Legal id p →
    ∃ t : Frame, exec (.encode id p) s = .next { s with answer := .frame t } ∧
      exec (.decode t) s' = .next { s' with answer := .decoded (.ok id p) }) ∧
  (∀ (s s' : State) (f : Frame) (id : CanId) (p : List Byte), 7 < f[3].toNat →
    exec (.decode f) s = .next { s with answer := .decoded (.ok id p) } →
    exec (.encode id p) s' = .refused .encodePrecondition) ∧
  (∀ k ∈ [2, 9, 17], ∃ (f t : Frame) (id : CanId) (p : List Byte), ∀ s : State, s.params = .default →
    exec (.decode f) s = .next { s with answer := .decoded (.ok id p) } ∧
    exec (.encode id p) s = .next { s with answer := .frame t } ∧ t[k]? ≠ f[k]?)

/-- spec/40_frame_codec.md R99: one inverted bit of an encoded frame, in any of its 160 places; and a bad header byte, whatever
the checksum. -/
def Obligations.SingleBitCorruptionIsRejected : Prop :=
  (∀ (s s' : State) (id : CanId) (p : List Byte), Legal id p →
    ∃ t : Frame, exec (.encode id p) s = .next { s with answer := .frame t } ∧
      ∀ (i : Fin 20) (b : Fin 8),
        exec (.decode (t.set i (t[i] ^^^ (1#8 <<< b.val)))) s' =
          .next { s' with answer := .decoded (.err (if i.val < 2 then .invalidHeader else .checksumMismatch)) }) ∧
  (∀ (s : State) (f : Frame), f[0] ≠ 0xAA ∨ f[1] ≠ 0x55 →
    exec (.decode f) s = .next { s with answer := .decoded (.err .invalidHeader) })

/-- spec/30_encoding.md R66 and R73: bytes 2, 4, 6, 7, 8 and 18, and the payload slots beyond dlc, are inputs of the checksum and
of nothing else: two accepted frames that agree on the other bytes decode alike. -/
def Obligations.ReservedAndFillerBytesAreIgnored : Prop :=
  ∀ (s : State) (f g : Frame) (idf idg : CanId) (pf pg : List Byte),
    exec (.decode f) s = .next { s with answer := .decoded (.ok idf pf) } →
    exec (.decode g) s = .next { s with answer := .decoded (.ok idg pg) } →
    f[3] = g[3] → f[5] = g[5] → min f[9].toNat 8 = min g[9].toNat 8 →
    (∀ i < min f[9].toNat 8, f[10 + i]? = g[10 + i]?) →
    idf = idg ∧ pf = pg

/-- spec/60_exceptions.md R161: the status codes, the cause of each kind, and that no operation but `DECODE` (which a received
frame performs too) raises one. -/
def Obligations.OnlyDecodeRaisesFrameErrors : Prop :=
  (∀ (id : CanId) (p : List Byte), (DecodeResult.ok id p).status = 0) ∧
  (DecodeResult.err .invalidHeader).status = 1 ∧ (DecodeResult.err .checksumMismatch).status = 2 ∧
  (∀ (s : State) (f : Frame), exec (.decode f) s = .next { s with answer := .decoded (.err .invalidHeader) } ↔
    (f[0] ≠ 0xAA ∨ f[1] ≠ 0x55)) ∧
  (∀ (s : State) (f : Frame), exec (.decode f) s = .next { s with answer := .decoded (.err .checksumMismatch) } ↔
    (f[0] = 0xAA ∧ f[1] = 0x55 ∧ f[19] ≠ cksum f)) ∧
  (∀ (i : Instr) (s t : State) (k : FrameError), exec i s = .next t → t.answer = .decoded (.err k) →
    i.format = .f20 ∨ ∃ f, i = .decode f)

/-- spec/10_state.md R22 and spec/60_exceptions.md R160, R164: the codec keeps nothing. A `DECODE`, failed or not, changes nothing
about the operation after it, and `ENCODE` depends on nothing but its operands and the parameters. -/
def Obligations.CodecKeepsNothing : Prop :=
  (∀ (s : State) (f : Frame) (i : Instr), performAll [.decode f, i] s = exec i s) ∧
  (∀ (s : State) (id : CanId) (p : List Byte) (i : Instr), Legal id p → performAll [.encode id p, i] s = exec i s) ∧
  (∀ (s s' : State) (id : CanId) (p : List Byte), s.params = s'.params → Legal id p →
    ∃ t : Frame, exec (.encode id p) s = .next { s with answer := .frame t } ∧
      exec (.encode id p) s' = .next { s' with answer := .frame t })

/-- spec/10_state.md R20: results do not survive as state of the block: no operation's outcome depends on what the one before it
answered (log 2: the model's place for the answer). -/
def Obligations.NoOperationReadsTheLastAnswer : Prop :=
  ∀ (i : Instr) (s : State) (a : Answer), exec i { s with answer := a } = exec i s

/-! ### The supervisor -/

/-- spec/70_reset_and_hazards.md R180: every register, the defaults, healthy, the selector; nothing else but the answer. -/
def Obligations.ResetStartsASession : Prop :=
  (∀ (s : State) (tx rx : Timestamp), exec (.reset tx rx) s = .next { s with
    session := some { lastTxTime := 0, lastRxTime := 0, state := .unknown, txInterval := tx, rxTimeout := rx },
    answer := .done }) ∧
  (∀ (s t : State) (tx rx : Timestamp), exec (.reset tx rx) s = .next t → t.healthy = some false) ∧
  Params.default.txInterval = 1000 ∧ Params.default.rxTimeout = 5 * Params.default.txInterval ∧
  (∀ tx rx : Timestamp, opField (.reset tx rx) = some 0)

/-- spec/10_state.md R33: the values after reset, with the default configuration. -/
def Obligations.StateAfterResetIsAsTheSpecSays : Prop :=
  State.reset.session = some
    { lastTxTime := 0, lastRxTime := 0, state := .unknown, txInterval := 1000, rxTimeout := 5000 } ∧
  State.reset.healthy = some false

/-- spec/70_reset_and_hazards.md R181: before the first reset the supervisor's operations are refused and the codec and the
payload encoders work; a reset forgets, and the next tick not below `TX_INTERVAL` emits; nothing but a reset leads to `Unknown`. -/
def Obligations.SupervisorNeedsAResetAndForgetsAtOne : Prop :=
  (∀ (s : State) (id : CanId) (now : Timestamp), s.session = none →
    exec (.hbTick now) s = .refused .noSession ∧ exec (.hbRx id now) s = .refused .noSession ∧
    exec (.hbCheck now) s = .refused .noSession) ∧
  (∀ (s : State) (id : CanId) (p : List Byte) (f : Frame) (v : Variant) (sp : Speed) (m : Byte) (tmo : TimeoutMs),
    s.session = none → Legal id p →
    ∃ a b c d e : Answer, exec (.encode id p) s = .next { s with answer := a } ∧
      exec (.decode f) s = .next { s with answer := b } ∧ exec (.cmdEncode v sp) s = .next { s with answer := c } ∧
      exec .estopEncode s = .next { s with answer := d } ∧ exec (.configEncode m tmo) s = .next { s with answer := e }) ∧
  (∀ (s : State) (tx rx now : Timestamp), tx.toNat ≤ now.toNat →
    ∃ t, performAll [.reset tx rx, .hbTick now] s = .next t ∧
      t.answer = .emit 0x103 (List.replicate s.params.hbDlc.val 0x00)) ∧
  (∀ (i : Instr) (s t : State) (h' : Session), exec i s = .next t → t.session = some h' → h'.state = .unknown →
    (∃ tx rx, i = .reset tx rx) ∨ ∃ h, s.session = some h ∧ h.state = .unknown)

/-- spec/41_heartbeat.md R112: emission, no emission, refusal; the selector; the two frames of the emitted heartbeat; the worked
example. -/
def Obligations.TickEmitsWhenTheIntervalHasPassed : Prop :=
  (∀ (s : State) (h : Session) (now : Timestamp), s.session = some h → h.lastTxTime.toNat ≤ now.toNat →
    h.txInterval.toNat ≤ now.toNat - h.lastTxTime.toNat →
    exec (.hbTick now) s = .next { s with
      session := some { h with lastTxTime := now },
      answer := .emit 0x103 (List.replicate s.params.hbDlc.val 0x00) }) ∧
  (∀ (s : State) (h : Session) (now : Timestamp), s.session = some h → h.lastTxTime.toNat ≤ now.toNat →
    now.toNat - h.lastTxTime.toNat < h.txInterval.toNat →
    exec (.hbTick now) s = .next { s with answer := .quiet }) ∧
  (∀ (s : State) (h : Session) (now : Timestamp), s.session = some h → now.toNat < h.lastTxTime.toNat →
    exec (.hbTick now) s = .refused .nonMonotonicNow) ∧
  (∀ now : Timestamp, opField (.hbTick now) = some 3) ∧
  (∀ s : State, s.params = .default →
    exec (.encode 0x103 (List.replicate 8 0x00)) s = .next { s with
      answer := .frame
        #v[0xAA, 0x55, 0x01, 0x01, 0x01, 0x03, 0x01, 0x00, 0x00, 0x08,
           0x00, 0x00, 0x00, 0x00, 0x00, 0x00, 0x00, 0x00, 0x00, 0x0F] } ∧
    exec (.encode 0x103 (List.replicate 0 0x00)) s = .next { s with
      answer := .frame
        #v[0xAA, 0x55, 0x01, 0x01, 0x01, 0x03, 0x01, 0x00, 0x00, 0x00,
           0x00, 0x00, 0x00, 0x00, 0x00, 0x00, 0x00, 0x00, 0x00, 0x07] }) ∧
  (∃ t h, exec (.hbTick 1000) State.reset = .next t ∧ t.answer = .emit 0x103 (List.replicate 8 0x00) ∧
    t.session = some h ∧ h.lastTxTime = 1000)

/-- spec/41_heartbeat.md R113 (c): two emissions of one session are never closer than `TX_INTERVAL`, whatever else is issued
between them. -/
def Obligations.EmissionsAreNeverCloserThanTheInterval : Prop :=
  ∀ (s t u v : State) (h : Session) (ops : List Instr) (now now' : Timestamp) (id id' : CanId) (p p' : List Byte),
    s.session = some h → exec (.hbTick now) s = .next t → t.answer = .emit id p →
    (∀ i ∈ ops, ∀ tx rx, i ≠ .reset tx rx) → performAll ops t = .next u →
    exec (.hbTick now') u = .next v → v.answer = .emit id' p' →
    now.toNat + h.txInterval.toNat ≤ now'.toNat

/-- spec/41_heartbeat.md R114: the heartbeat identifier, all 16 bits; any other; the selector; the worked example. -/
def Obligations.ReceiveNotesOnlyTheHeartbeatIdentifier : Prop :=
  (∀ (s : State) (h : Session) (now : Timestamp), s.session = some h →
    exec (.hbRx 0x104 now) s = .next { s with
      session := some { h with lastRxTime := now, state := .healthy },
      answer := .done }) ∧
  (∀ (s : State) (h : Session) (id : CanId) (now : Timestamp), s.session = some h → id ≠ 0x104 →
    exec (.hbRx id now) s = .next { s with answer := .done }) ∧
  (∀ (id : CanId) (now : Timestamp), opField (.hbRx id now) = some 4) ∧
  (∃ t h, exec (.hbRx 0x104 2000) State.reset = .next t ∧ t.session = some h ∧ h.lastRxTime = 2000 ∧
    h.state = .healthy ∧ t.healthy = some true)

/-- spec/41_heartbeat.md R116: not armed; armed and refused; armed and silent too long; armed and not; the selector; the worked
example. `Unknown` with a receive time is armed, as the document writes it. -/
def Obligations.CheckReportsSilenceBeyondTheTimeout : Prop :=
  (∀ (s : State) (h : Session) (now : Timestamp), s.session = some h →
    h.state = .unhealthy ∨ (h.state = .unknown ∧ h.lastRxTime = 0) →
    exec (.hbCheck now) s = .next { s with answer := .report false }) ∧
  (∀ (s : State) (h : Session) (now : Timestamp), s.session = some h →
    h.state = .healthy ∨ (h.state = .unknown ∧ h.lastRxTime ≠ 0) → now.toNat < h.lastRxTime.toNat →
    exec (.hbCheck now) s = .refused .nonMonotonicNow) ∧
  (∀ (s : State) (h : Session) (now : Timestamp), s.session = some h →
    h.state = .healthy ∨ (h.state = .unknown ∧ h.lastRxTime ≠ 0) → h.lastRxTime.toNat ≤ now.toNat →
    h.rxTimeout.toNat < now.toNat - h.lastRxTime.toNat →
    exec (.hbCheck now) s = .next { s with
      session := some { h with state := .unhealthy, lastRxTime := 0 },
      answer := .report true }) ∧
  (∀ (s : State) (h : Session) (now : Timestamp), s.session = some h →
    h.state = .healthy ∨ (h.state = .unknown ∧ h.lastRxTime ≠ 0) → h.lastRxTime.toNat ≤ now.toNat →
    now.toNat - h.lastRxTime.toNat ≤ h.rxTimeout.toNat →
    exec (.hbCheck now) s = .next { s with answer := .report false }) ∧
  (∀ now : Timestamp, opField (.hbCheck now) = some 5) ∧
  (∀ (s : State) (h : Session), s.session = some h → h.rxTimeout = 5000 → h.lastRxTime = 2000 → h.state = .healthy →
    exec (.hbCheck 7100) s = .next { s with
      session := some { h with state := .unhealthy, lastRxTime := 0 },
      answer := .report true })

/-- spec/41_heartbeat.md R119: the state after an operation that answers, in a session; every operation not listed leaves it, and
no edge but reset leads to `Unknown`. -/
def Obligations.HealthStateFollowsTheTransitionTable : Prop :=
  ∀ (i : Instr) (s t : State) (h : Session), i.format = .op → s.session = some h → exec i s = .next t →
    ∃ h', t.session = some h' ∧
      ((∃ tx rx, i = .reset tx rx) → h'.state = .unknown) ∧
      (∀ now, i = .hbRx 0x104 now → h'.state = .healthy) ∧
      (∀ id now, i = .hbRx id now → id ≠ 0x104 → h'.state = h.state) ∧
      (∀ now, i = .hbCheck now → h.rxTimeout.toNat < now.toNat - h.lastRxTime.toNat →
        h.state = .healthy ∨ (h.state = .unknown ∧ h.lastRxTime ≠ 0) → h'.state = .unhealthy) ∧
      (∀ now, i = .hbCheck now → now.toNat - h.lastRxTime.toNat ≤ h.rxTimeout.toNat ∨ h.state = .unhealthy ∨
        (h.state = .unknown ∧ h.lastRxTime = 0) → h'.state = h.state) ∧
      ((∀ tx rx, i ≠ .reset tx rx) → (∀ id now, i ≠ .hbRx id now) → (∀ now, i ≠ .hbCheck now) → h'.state = h.state) ∧
      (h'.state = .unknown → h.state ≠ .unknown → ∃ tx rx, i = .reset tx rx)

/-- spec/41_heartbeat.md R121: the two halves do not interact. -/
def Obligations.TransmitAndReceiveHalvesDoNotInteract : Prop :=
  (∀ (s t u : State) (ops : List Instr) (now : Timestamp),
    (∀ i ∈ ops, (∃ id n, i = .hbRx id n) ∨ ∃ n, i = .hbCheck n) → performAll ops s = .next t →
    exec (.hbTick now) s = .next u → ∃ v, exec (.hbTick now) t = .next v ∧ v.answer = u.answer) ∧
  (∀ (s t : State) (ops : List Instr) (now : Timestamp) (r : Refusal),
    (∀ i ∈ ops, (∃ id n, i = .hbRx id n) ∨ ∃ n, i = .hbCheck n) → performAll ops s = .next t →
    exec (.hbTick now) s = .refused r → exec (.hbTick now) t = .refused r) ∧
  (∀ (s t : State) (now : Timestamp), exec (.hbTick now) s = .next t →
    t.healthy = s.healthy ∧ t.session.map (fun h => (h.state, h.lastRxTime)) = s.session.map (fun h => (h.state, h.lastRxTime)))

/-- spec/10_state.md R29, the writes: outside `RESET` no operation writes the constants, only `HB_TICK` writes `last_tx_time`, only
`HB_RX` and `HB_CHECK` write `last_rx_time` and `state`; and no operation touches the parameters or anything of the host. -/
def Obligations.EachRegisterHasItsOwnWriters : Prop :=
  ∀ (i : Instr) (s t : State), i.format = .op → exec i s = .next t →
    t = { s with session := t.session, answer := t.answer } ∧
    (∀ h, s.session = some h → (∀ tx rx, i ≠ .reset tx rx) →
      ∃ h', t.session = some h' ∧ h'.txInterval = h.txInterval ∧ h'.rxTimeout = h.rxTimeout ∧
        (h'.lastTxTime ≠ h.lastTxTime → ∃ now, i = .hbTick now) ∧
        (h'.lastRxTime ≠ h.lastRxTime → (∃ id now, i = .hbRx id now) ∨ ∃ now, i = .hbCheck now) ∧
        (h'.state ≠ h.state → (∃ id now, i = .hbRx id now) ∨ ∃ now, i = .hbCheck now))

/-- spec/10_state.md R29, the reads: `HB_TICK` reads only `last_tx_time` and `TX_INTERVAL`, `HB_CHECK` only `last_rx_time`, `state`
and `RX_TIMEOUT`, `HB_RX` nothing: sessions that agree on those give the same answer and the same new values. -/
def Obligations.EachOperationReadsItsOwnRegisters : Prop :=
  (∀ (s s' t : State) (h h' g : Session) (now : Timestamp), s.session = some h → s'.session = some h' →
    s.params = s'.params → h.lastTxTime = h'.lastTxTime → h.txInterval = h'.txInterval →
    exec (.hbTick now) s = .next t → t.session = some g →
    exec (.hbTick now) s' = .next { s' with session := some { h' with lastTxTime := g.lastTxTime }, answer := t.answer }) ∧
  (∀ (s s' t : State) (h h' g : Session) (now : Timestamp), s.session = some h → s'.session = some h' →
    h.lastRxTime = h'.lastRxTime → h.state = h'.state → h.rxTimeout = h'.rxTimeout →
    exec (.hbCheck now) s = .next t → t.session = some g →
    exec (.hbCheck now) s' = .next { s' with
      session := some { h' with lastRxTime := g.lastRxTime, state := g.state },
      answer := t.answer }) ∧
  (∀ (s s' t : State) (h h' : Session) (id : CanId) (now : Timestamp), s.session = some h → s'.session = some h' →
    exec (.hbRx id now) s = .next t → ∃ t', exec (.hbRx id now) s' = .next t' ∧ t'.answer = t.answer ∧
      ∀ g g', t.session = some g → t'.session = some g' →
        (id = 0x104 → g'.lastRxTime = g.lastRxTime ∧ g'.state = g.state) ∧ (id ≠ 0x104 → g' = h'))

/-- spec/10_state.md R30: (a) and (b) hold after reset and every operation keeps them; (c) the state is never the fourth 2-bit
value; the converses fail: a session that is `Healthy` with `last_rx_time = 0` is reached. -/
def Obligations.OperationsKeepTheSessionInvariant : Prop :=
  (∀ h ∈ State.reset.session, h.Inv) ∧
  (∀ (i : Instr) (s t : State), (∀ h ∈ s.session, h.Inv) → exec i s = .next t → ∀ h ∈ t.session, h.Inv) ∧
  (∀ st : HealthState, st.number ≠ 3) ∧
  (∃ t h, exec (.hbRx 0x104 0) State.reset = .next t ∧ t.session = some h ∧ h.state = .healthy ∧ h.lastRxTime = 0)

/-- spec/41_heartbeat.md R117 (b), the latch: after a report, whatever is issued short of a received heartbeat or a reset, every
check reports 0. -/
def Obligations.OneSilenceIsReportedOnce : Prop :=
  ∀ (s t u : State) (ops : List Instr) (now now' : Timestamp),
    exec (.hbCheck now) s = .next t → t.answer = .report true →
    (∀ i ∈ ops, notesHeartbeat i = false ∧ ∀ tx rx, i ≠ .reset tx rx) → performAll ops t = .next u →
    exec (.hbCheck now') u = .next { u with answer := .report false } ∧ u.healthy = some false

/-- spec/70_reset_and_hazards.md R192: a link that never comes up is never reported down. -/
def Obligations.LinkThatNeverCameUpIsNeverReported : Prop :=
  ∀ (s t : State) (tx rx now : Timestamp) (ops : List Instr), (∀ i ∈ ops, notesHeartbeat i = false) →
    performAll (.reset tx rx :: ops) s = .next t →
    t.healthy = some false ∧ (∃ h, t.session = some h ∧ h.state = .unknown) ∧
    exec (.hbCheck now) t = .next { t with answer := .report false }

/-- spec/70_reset_and_hazards.md R186: `healthy` goes from 1 to 0 only in `HB_CHECK` (or at a reset), and a heartbeat is emitted
only in `HB_TICK`. -/
def Obligations.HealthFallsOnlyInCheckAndEmissionOnlyInTick : Prop :=
  (∀ (i : Instr) (s t : State), exec i s = .next t → s.healthy = some true → t.healthy ≠ some true →
    (∃ now, i = .hbCheck now) ∨ ∃ tx rx, i = .reset tx rx) ∧
  (∀ (i : Instr) (s t : State) (id : CanId) (p : List Byte), exec i s = .next t → t.answer = .emit id p →
    ∃ now, i = .hbTick now)

/-! ### The payload encoders -/

/-- spec/42_command_payloads.md R131: code, clamped speed, Stop; the selector; the document's test cases and the worked example. -/
def Obligations.CommandCarriesCodeAndClampedSpeed : Prop :=
  (∀ (s : State) (v : Variant) (sp : Speed), ∃ b : Byte,
    exec (.cmdEncode v sp) s = .next { s with
      answer := .message 0x100 [cmdCode s.params.cmdCodes v, b, 0, 0, 0, 0, 0, 0] } ∧
    (v = .stop → b = 0) ∧ (v ≠ .stop → (b.toNat : Int) = min (max sp.toInt 0) 100)) ∧
  (∀ (v : Variant) (sp : Speed), opField (.cmdEncode v sp) = some 8) ∧
  (∀ s : State, s.params = .default →
    exec (.cmdEncode .forward 150) s = .next { s with answer := .message 0x100 [0x01, 100, 0, 0, 0, 0, 0, 0] } ∧
    exec (.cmdEncode .forward (-5)) s = .next { s with answer := .message 0x100 [0x01, 0, 0, 0, 0, 0, 0, 0] } ∧
    exec (.cmdEncode .stop 80) s = .next { s with answer := .message 0x100 [0x00, 0, 0, 0, 0, 0, 0, 0] })

/-- spec/42_command_payloads.md R134: the emergency stop; the selector; the frame `SEND_ESTOP` puts on the wire. -/
def Obligations.EmergencyStopMessage : Prop :=
  (∀ s : State, exec .estopEncode s = .next { s with answer := .message 0x101 [0xFF, 0, 0, 0, 0, 0, 0, 0] }) ∧
  opField .estopEncode = some 9 ∧
  (∀ s : State, s.params = .default → s.transportOpen = true →
    ∃ t, sendEstop true s = .next t ∧ t.written = s.written ++
      [#v[0xAA, 0x55, 0x01, 0x01, 0x01, 0x01, 0x01, 0x00, 0x00, 0x08,
          0xFF, 0x00, 0x00, 0x00, 0x00, 0x00, 0x00, 0x00, 0x00, 0x0C]])

/-- spec/42_command_payloads.md R135: the configuration, high byte first, not clamped, `RX_TIMEOUT` untouched; the selector; the
frame of `SEND_CONFIG 80, 5000`. -/
def Obligations.ConfigurationMessage : Prop :=
  (∀ (s : State) (m : Byte) (tmo : TimeoutMs), ∃ hi lo : Byte,
    exec (.configEncode m tmo) s = .next { s with answer := .message 0x102 [m, hi, lo, 0, 0, 0, 0, 0] } ∧
    hi.toNat = tmo.toNat / 256 ∧ lo.toNat = tmo.toNat % 256) ∧
  (∀ (m : Byte) (tmo : TimeoutMs), opField (.configEncode m tmo) = some 10) ∧
  (∀ s : State, s.params = .default → s.transportOpen = true →
    exec (.configEncode 80 5000) s = .next { s with answer := .message 0x102 [0x50, 0x13, 0x88, 0, 0, 0, 0, 0] } ∧
    ∃ t, sendConfig true 80 5000 s = .next t ∧ t.written = s.written ++
      [#v[0xAA, 0x55, 0x01, 0x01, 0x01, 0x02, 0x01, 0x00, 0x00, 0x08,
          0x50, 0x13, 0x88, 0x00, 0x00, 0x00, 0x00, 0x00, 0x00, 0xF9]])

/-- spec/42_command_payloads.md R136 and R133 (d): every message of the three encoders has 8 bytes and satisfies `ENCODE`'s
precondition, and its frame carries dlc 8 and those bytes. -/
def Obligations.MessagesAreEightBytesAndEncodable : Prop :=
  ∀ (s : State) (i : Instr),
    (∃ v sp, i = .cmdEncode v sp) ∨ i = .estopEncode ∨ (∃ m tmo, i = .configEncode m tmo) →
    ∃ (id : CanId) (p : List Byte) (t : Frame), exec i s = .next { s with answer := .message id p } ∧
      p.length = 8 ∧ Legal id p ∧ performAll [i, .encode id p] s = .next { s with answer := .frame t } ∧
      t[9] = 0x08 ∧ ∀ k < 8, t[10 + k]? = p[k]?

/-! ### Received frames -/

/-- spec/43_control_loop.md R143, for the rows FRAME, FRAME.MOTOR_CMD, FRAME.EMERGENCY_STOP, FRAME.CONFIG, FRAME.HEARTBEAT_OUT: an
accepted frame of these kinds goes to the sink, and nothing reaches the supervisor. -/
def Obligations.OtherFramesGoToTheSink : Prop :=
  ∀ (s : State) (f : Frame) (i : Instr), i.WellFormed → f[19].toNat = (byteSum f + 1) % 256 →
    i = .frame f ∨ i = .frameMotorCmd f ∨ i = .frameEmergencyStop f ∨ i = .frameConfig f ∨ i = .frameHeartbeatOut f →
    ∃ (id : CanId) (p : List Byte), id.toNat = f[3].toNat * 256 + f[5].toNat ∧
      p = (f.toList.drop 10).take (min f[9].toNat 8) ∧
      exec i s = .next { s with answer := .decoded (.ok id p), sink := s.sink ++ [(id, p)] }

/-- spec/43_control_loop.md R143, for the row FRAME.HEARTBEAT_IN: the supervisor notes it with the host's clock sample, exactly as
`HB_RX 0x104` does, and the sink gets nothing; without a session it is refused as `HB_RX` is. -/
def Obligations.HeartbeatFramesFeedTheSupervisor : Prop :=
  ∀ (s : State) (f : Frame), (Instr.frameHeartbeatIn f).WellFormed → f[19].toNat = (byteSum f + 1) % 256 →
    exec (.frameHeartbeatIn f) s = exec (.hbRx 0x104 s.clock) s ∧
    (∀ h, s.session = some h → exec (.frameHeartbeatIn f) s = .next { s with
      session := some { h with lastRxTime := s.clock, state := .healthy }, answer := .done }) ∧
    (s.session = none → exec (.frameHeartbeatIn f) s = .refused .noSession)

/-- spec/60_exceptions.md R163: a frame of any of the six kinds with a wrong checksum is dropped and logged, and no more. -/
def Obligations.CorruptFramesAreDroppedAndLogged : Prop :=
  ∀ (s : State) (f : Frame) (k : FrameKind), (k.instr f).WellFormed → f[19].toNat ≠ (byteSum f + 1) % 256 →
    exec (k.instr f) s = .next { s with
      answer := .decoded (.err .checksumMismatch),
      log := s.log ++ [.frameDropped .checksumMismatch] }

/-- spec/30_encoding.md R76, `SEND`, with any legal identifier: `ENCODE`, then one write of the frame, a failure logged and not
retried (log 6); outside `ENCODE`'s precondition it is refused and nothing is written. -/
def Obligations.SendWritesTheEncodedFrame : Prop :=
  (∀ (s : State) (id : CanId) (p : List Byte) (ok : Bool), Legal id p → s.transportOpen = true →
    ∃ t : Frame, exec (.encode id p) s = .next { s with answer := .frame t } ∧
      send ok id p s = .next { s with
        answer := .frame t,
        written := if ok then s.written ++ [t] else s.written,
        log := if ok then s.log else s.log ++ [.writeFailed] }) ∧
  (∀ (s : State) (id : CanId) (p : List Byte) (ok : Bool), ¬ Legal id p →
    send ok id p s = .refused .encodePrecondition)

/-- spec/30_encoding.md R76, `TRY_RECEIVE`: its result is the decoded pair or none, in a session or without one. No group, or one
of another length than 20 (spec/43_control_loop.md R142): none, and nothing changes. A frame that `DECODE` rejects: none, dropped
and logged (log 6). One that it accepts, a heartbeat too: the pair; nothing is routed. -/
def Obligations.TryReceiveAnswersThePairOrNone : Prop :=
  (∀ s : State, tryReceive none s = (none, s)) ∧
  (∀ (s : State) (bs : List Byte), bs.length ≠ 20 → tryReceive (some bs) s = (none, s)) ∧
  (∀ (s : State) (f : Frame) (k : FrameError),
    exec (.decode f) s = .next { s with answer := .decoded (.err k) } →
    tryReceive (some f.toList) s =
      (none, { s with answer := .decoded (.err k), log := s.log ++ [.frameDropped k] })) ∧
  (∀ (s : State) (f : Frame) (id : CanId) (p : List Byte),
    exec (.decode f) s = .next { s with answer := .decoded (.ok id p) } →
    tryReceive (some f.toList) s = (some (id, p), { s with answer := .decoded (.ok id p) }))

/-- spec/43_control_loop.md R141 step 1 and R143: step 1 routes what `TRY_RECEIVE` answers. None: on to step 2. A pair with the
heartbeat identifier: `HB_RX` with the step's clock sample, and nothing for the sink. Any other pair: the sink. (Logs 4, 6, 7.) -/
def Obligations.StepOneRoutesWhatTryReceiveAnswers : Prop :=
  ∀ (s t : State) (it : Iteration) (rest : List Iteration) (r : Option (CanId × List Byte)), s.requests = [] →
    s.phase = .receive → s.schedule = it :: rest → it.shutdown = false →
    tryReceive it.group { s with clock := it.receiveNow } = (r, t) →
    (r = none → step s = .next { t with phase := .tick }) ∧
    (∀ p h, r = some (0x104, p) → s.session = some h → step s = .next { t with
      session := some { h with lastRxTime := it.receiveNow, state := .healthy }, answer := .done, phase := .tick }) ∧
    (∀ p, r = some (0x104, p) → s.session = none → step s = .refused .noSession) ∧
    (∀ id p, r = some (id, p) → id ≠ 0x104 → step s = .next { t with sink := s.sink ++ [(id, p)], phase := .tick })

/-! ### Encodings -/

/-- Decoding an encoded well-formed instruction gives it back, in either format, with every operand at every value. (The layout
of a request's operands is the model's, log 3; selectors and frames are the spec's.) -/
def Obligations.DecodeOfEncodeIsTheInstruction : Prop :=
  ∀ i : Instr, i.WellFormed → decode i.format (encode i) = .ok i

/-- A group of 20 bytes with the sync header stands for exactly one well-formed instruction; without the header, for none; and a
group of another length is no frame (spec/20_memory.md R46). That it is exactly one is the model's reading of the F20 rows, log 1:
the first row of spec/30_encoding.md R69 fits every good header, and the model gives FRAME only the frames that no named row
fits, and classifies before `DECODE`. -/
def Obligations.GroupsAreClassifiedByHeaderAndIdentifier : Prop :=
  (∀ f : Frame, f.HasSync → ∃ k : FrameKind, (k.instr f).WellFormed ∧ decode .f20 f.toList = .ok (k.instr f) ∧
    ∀ k' : FrameKind, (k'.instr f).WellFormed → k' = k) ∧
  (∀ f : Frame, ¬ f.HasSync → decode .f20 f.toList = .error .badHeader) ∧
  (∀ bs : List Byte, bs.length ≠ 20 → decode .f20 bs = .error .badLength)

/-- The nine selectors of spec/30_encoding.md R71 and the seven values that select nothing. That the selector stands in bits 3..0
of the first byte of a request, and that bits 7..4 of that byte are ignored, is the model's layout, log 3. -/
def Obligations.SelectorsAreAsNumbered : Prop :=
  (∀ (tx rx now : Timestamp) (id : CanId) (p : List Byte) (f : Frame) (v : Variant) (sp : Speed) (m : Byte) (tmo : TimeoutMs),
    [Instr.reset tx rx, .encode id p, .decode f, .hbTick now, .hbRx id now, .hbCheck now, .cmdEncode v sp, .estopEncode,
      .configEncode m tmo].map opField =
    [some 0, some 1, some 2, some 3, some 4, some 5, some 8, some 9, some 10]) ∧
  (∀ (b : Byte) (bs : List Byte), b.toNat % 16 ∈ [6, 7, 11, 12, 13, 14, 15] →
    decode .op (b :: bs) = .error (.unassignedSelector (b.toNat % 16)))

/-- A few words written out from the encodings of spec/30_encoding.md R60, R69 and R71 decode to what they stand for. That a word
is padded with zeros, lowest byte first, is the model's choice, log 10, and so are the operand bytes of a request, log 3. -/
def Obligations.WordsOfTheTableDecode : Prop :=
  decodeTableWord 8 0x9 = some .estopEncode ∧
  decodeTableWord 8 0x3 = some (.hbTick 0) ∧
  decodeTableWord 8 0x6 = none ∧
  decodeTableWord 160 0x040001_0055AA =
    some (.frameHeartbeatIn #v[0xAA, 0x55, 0, 0x01, 0, 0x04, 0, 0, 0, 0, 0, 0, 0, 0, 0, 0, 0, 0, 0, 0]) ∧
  decodeTableWord 160 0x55AA = some (.frame #v[0xAA, 0x55, 0, 0, 0, 0, 0, 0, 0, 0, 0, 0, 0, 0, 0, 0, 0, 0, 0, 0])

/-! ### Steps -/

/-- A step performs the oldest request: the operation its bytes decode to, on the state without that request (log 7). -/
def Obligations.StepPerformsTheOldestRequest : Prop :=
  ∀ (s : State) (bs : List Byte) (rest : List (List Byte)) (i : Instr), s.requests = bs :: rest →
    decode .op bs = .ok i → i.WellFormed → step s = exec i { s with requests := rest }

/-- With no request waiting, step 1 of the loop runs the instruction its group decodes to, with the iteration's clock sample, and
goes on to step 2. -/
def Obligations.StepReceivesTheArrivedFrame : Prop :=
  ∀ (s : State) (it : Iteration) (rest : List Iteration) (bs : List Byte) (i : Instr), s.requests = [] →
    s.phase = .receive → s.schedule = it :: rest → it.shutdown = false → it.group = some bs →
    decode .f20 bs = .ok i → i.WellFormed →
    step s = match exec i { s with clock := it.receiveNow } with
      | .next t => .next { t with phase := .tick }
      | .fault r => .fault r
      | .refused r => .refused r

/-- spec/43_control_loop.md R142 and spec/40_frame_codec.md R96: no group, or one of another length than 20, is no frame; a group
without the sync header is dropped and logged. -/
def Obligations.StepWithoutAFrameReceivesNothing : Prop :=
  ∀ (s : State) (it : Iteration) (rest : List Iteration), s.requests = [] →
    s.phase = .receive → s.schedule = it :: rest → it.shutdown = false →
    (it.group = none ∨ (∃ bs, it.group = some bs ∧ bs.length ≠ 20) →
      step s = .next { s with clock := it.receiveNow, phase := .tick }) ∧
    (∀ f : Frame, it.group = some f.toList → ¬ f.HasSync →
      step s = .next { s with
        clock := it.receiveNow, phase := .tick, answer := .decoded (.err .invalidHeader),
        log := s.log ++ [.frameDropped .invalidHeader] })

/-- The three requests of spec/30_encoding.md R74 that are refused. The last clause speaks of a request as bytes and of a step:
the selector's place in the first byte, bits 7..4 ignored, is log 3's, and the step is log 7's. -/
def Obligations.RequestsOutsideTheSpecAreRefused : Prop :=
  (∀ (s : State) (id : CanId) (p : List Byte), 0x7FF < id.toNat ∨ 8 < p.length →
    exec (.encode id p) s = .refused .encodePrecondition) ∧
  (∀ (s : State) (h : Session) (now : Timestamp), s.session = some h → now.toNat < h.lastTxTime.toNat →
    exec (.hbTick now) s = .refused .nonMonotonicNow) ∧
  (∀ (s : State) (h : Session) (now : Timestamp), s.session = some h →
    h.state = .healthy ∨ (h.state = .unknown ∧ h.lastRxTime ≠ 0) → now.toNat < h.lastRxTime.toNat →
    exec (.hbCheck now) s = .refused .nonMonotonicNow) ∧
  (∀ (s : State) (b : Byte) (bs : List Byte) (rest : List (List Byte)), s.requests = (b :: bs) :: rest →
    b.toNat % 16 ∈ [6, 7, 11, 12, 13, 14, 15] → step s = .refused (.unassignedSelector (b.toNat % 16)))

/-- spec/43_control_loop.md R147: session start. The transport opens, then the block is reset with the configured intervals and the
loop begins; or it does not open, the error is reported, the block is not reset and the loop is never entered. -/
def Obligations.SessionStartsWithOpenTransportAndReset : Prop :=
  ∀ s : State, s.requests = [] →
    (s.phase = .start → s.transportOpens = true → step s = .next { s with
      transportOpen := true, phase := .receive, answer := .done,
      session := some { lastTxTime := 0, lastRxTime := 0, state := .unknown,
                        txInterval := s.params.txInterval, rxTimeout := s.params.rxTimeout } }) ∧
    (s.phase = .start → s.transportOpens = false →
      step s = .next { s with log := s.log ++ [.openFailed], phase := .exited }) ∧
    (s.phase = .exited → step s = .next s)

/-- spec/43_control_loop.md R148: session end. One final Stop, which is `CMD_ENCODE Stop, 0` and `ENCODE` of its message, one write
(a failure is logged, not retried), the transport closed, the session discarded; under every configuration the payload is
`CMD_CODE[Stop]` and seven 0x00, and with the default table the last frame is the one the rule shows. -/
def Obligations.SessionEndsWithAFinalStop : Prop :=
  ∀ (s : State) (it : Iteration) (rest : List Iteration), s.requests = [] → s.phase = .receive →
    s.schedule = it :: rest → it.shutdown = true → s.transportOpen = true →
    ∃ t : Frame, step s = .next { s with
        answer := .frame t, transportOpen := false, session := none, phase := .ended, schedule := rest,
        written := if it.commandWriteOk then s.written ++ [t] else s.written,
        log := if it.commandWriteOk then s.log else s.log ++ [.writeFailed] } ∧
      exec (.cmdEncode .stop 0) s =
        .next { s with answer := .message 0x100 [s.params.cmdCodes.stop, 0, 0, 0, 0, 0, 0, 0] } ∧
      exec (.encode 0x100 [s.params.cmdCodes.stop, 0, 0, 0, 0, 0, 0, 0]) s = .next { s with answer := .frame t } ∧
      t[3] = 0x01 ∧ t[5] = 0x00 ∧ t[9] = 0x08 ∧ t[10] = s.params.cmdCodes.stop ∧
      (∀ i < 8, 1 ≤ i → t[10 + i]? = some 0x00) ∧ IsEncoded t ∧
      (s.params = .default → t =
        #v[0xAA, 0x55, 0x01, 0x01, 0x01, 0x00, 0x01, 0x00, 0x00, 0x08,
           0x00, 0x00, 0x00, 0x00, 0x00, 0x00, 0x00, 0x00, 0x00, 0x0C])

/-- spec/43_control_loop.md R141 step 2, spec/41_heartbeat.md R113 (g), spec/70_reset_and_hazards.md R191: a heartbeat that is due is
encoded and written, and `last_tx_time` moves whether or not the write succeeds; one that is not due changes no register; a
sample below `last_tx_time` is refused (R111). -/
def Obligations.HeartbeatCountsAsSentBeforeItIsWritten : Prop :=
  ∀ (s : State) (h : Session) (it : Iteration) (rest : List Iteration), s.requests = [] → s.phase = .tick →
    s.schedule = it :: rest → s.session = some h → s.transportOpen = true →
    (h.lastTxTime.toNat ≤ it.tickNow.toNat → h.txInterval.toNat ≤ it.tickNow.toNat - h.lastTxTime.toNat →
      ∃ t : Frame, step s = .next { s with
          clock := it.tickNow, session := some { h with lastTxTime := it.tickNow }, answer := .frame t, phase := .check,
          written := if it.heartbeatWriteOk then s.written ++ [t] else s.written,
          log := if it.heartbeatWriteOk then s.log else s.log ++ [.writeFailed] } ∧
        exec (.encode 0x103 (List.replicate s.params.hbDlc.val 0x00)) s = .next { s with answer := .frame t } ∧
        t[3] = 0x01 ∧ t[5] = 0x03 ∧ t[9].toNat = s.params.hbDlc.val ∧ (∀ i < 8, t[10 + i]? = some 0x00) ∧ IsEncoded t) ∧
    (h.lastTxTime.toNat ≤ it.tickNow.toNat → it.tickNow.toNat - h.lastTxTime.toNat < h.txInterval.toNat →
      step s = .next { s with clock := it.tickNow, answer := .quiet, phase := .check }) ∧
    (it.tickNow.toNat < h.lastTxTime.toNat → step s = .refused .nonMonotonicNow)

/-- spec/43_control_loop.md R141 step 3, spec/60_exceptions.md R166, spec/41_heartbeat.md R116, R117 (b) and (c): the loop's check
logs a timeout, which is no error, and goes on (that it logs it, where R116 and R150 leave it to the host to log it or to pass it
to telemetry, is the model's choice, log 16); within the timeout, in `Unhealthy` (the latch) and in `Unknown` with no receive
time (a link that never came up) it reports and logs nothing and goes on; an armed check with a sample below `last_rx_time` is
refused (R111). -/
def Obligations.TimeoutIsLoggedAndTheLoopGoesOn : Prop :=
  ∀ (s : State) (h : Session) (it : Iteration) (rest : List Iteration), s.requests = [] → s.phase = .check →
    s.schedule = it :: rest → s.session = some h →
    (h.state = .unhealthy ∨ (h.state = .unknown ∧ h.lastRxTime = 0) → step s = .next { s with
      clock := it.checkNow, answer := .report false, phase := .command }) ∧
    (h.state = .healthy ∨ (h.state = .unknown ∧ h.lastRxTime ≠ 0) →
      (h.lastRxTime.toNat ≤ it.checkNow.toNat → h.rxTimeout.toNat < it.checkNow.toNat - h.lastRxTime.toNat →
        step s = .next { s with
          clock := it.checkNow, session := some { h with state := .unhealthy, lastRxTime := 0 }, answer := .report true,
          phase := .command, log := s.log ++ [.timeoutReported] }) ∧
      (h.lastRxTime.toNat ≤ it.checkNow.toNat → it.checkNow.toNat - h.lastRxTime.toNat ≤ h.rxTimeout.toNat →
        step s = .next { s with clock := it.checkNow, answer := .report false, phase := .command }) ∧
      (it.checkNow.toNat < h.lastRxTime.toNat → step s = .refused .nonMonotonicNow))

/-- spec/43_control_loop.md R141 step 4 and R145, spec/30_encoding.md R76, spec/42_command_payloads.md R131: without a new event
nothing is sent; with one, one frame is written, that of `SEND_CMD` for the event's variant and speed: the frame `ENCODE` gives
for the message of `CMD_ENCODE`, its speed 0 for Stop and else the event's speed clamped. A failed write is not retried. -/
def Obligations.AtMostOneCommandPerIteration : Prop :=
  ∀ (s : State) (it : Iteration) (rest : List Iteration), s.requests = [] → s.phase = .command →
    s.schedule = it :: rest → s.transportOpen = true →
    (it.event = none → step s = .next { s with phase := .sleep }) ∧
    (∀ c, it.event = some c → ∃ (t : Frame) (b : Byte), step s = .next { s with
        answer := .frame t, phase := .sleep,
        written := if it.commandWriteOk then s.written ++ [t] else s.written,
        log := if it.commandWriteOk then s.log else s.log ++ [.writeFailed] } ∧
      exec (.cmdEncode c.variant c.speedPercent) s =
        .next { s with answer := .message 0x100 [cmdCode s.params.cmdCodes c.variant, b, 0, 0, 0, 0, 0, 0] } ∧
      exec (.encode 0x100 [cmdCode s.params.cmdCodes c.variant, b, 0, 0, 0, 0, 0, 0]) s = .next { s with answer := .frame t } ∧
      t[3] = 0x01 ∧ t[5] = 0x00 ∧ t[9] = 0x08 ∧ t[10] = cmdCode s.params.cmdCodes c.variant ∧ t[11] = b ∧
      (c.variant = .stop → t[11] = 0x00) ∧
      (c.variant ≠ .stop → (t[11].toNat : Int) = min (max c.speedPercent.toInt 0) 100) ∧
      (∀ i < 8, 2 ≤ i → t[10 + i]? = some 0x00) ∧ IsEncoded t)

/-- spec/43_control_loop.md R141: the five steps of an iteration in their order, the sleep ending it. -/
def Obligations.LoopTakesItsFiveStepsInOrder : Prop :=
  ∀ (s t : State) (it : Iteration) (rest : List Iteration), s.requests = [] → s.schedule = it :: rest →
    it.shutdown = false → step s = .next t →
    (s.phase = .receive → t.phase = .tick ∧ t.schedule = s.schedule) ∧
    (s.phase = .tick → t.phase = .check ∧ t.schedule = s.schedule) ∧
    (s.phase = .check → t.phase = .command ∧ t.schedule = s.schedule) ∧
    (s.phase = .command → t.phase = .sleep ∧ t.schedule = s.schedule) ∧
    (s.phase = .sleep → t = { s with phase := .receive, schedule := rest })

/-- spec/60_exceptions.md R169, spec/70_reset_and_hazards.md R189: a heartbeat received in the iteration whose check would have
declared the silence refreshes first: after steps 1 to 3 the link is healthy and no timeout has been logged (log 16), however long the
silence before it was. -/
def Obligations.HeartbeatInTheSameIterationBeatsTheTimeout : Prop :=
  ∀ (s : State) (h : Session) (it : Iteration) (rest : List Iteration) (f : Frame), s.requests = [] →
    s.phase = .receive → s.schedule = it :: rest → it.shutdown = false → s.session = some h →
    it.group = some f.toList → (Instr.frameHeartbeatIn f).WellFormed → f[19].toNat = (byteSum f + 1) % 256 →
    h.lastTxTime.toNat ≤ it.tickNow.toNat → it.receiveNow.toNat ≤ it.checkNow.toNat →
    it.checkNow.toNat - it.receiveNow.toNat ≤ h.rxTimeout.toNat →
    ∃ t g, Host.Core.run Sys2Proof.core 3 s = .next t ∧ t.phase = .command ∧ t.answer = .report false ∧
      t.session = some g ∧ g.state = .healthy ∧ g.lastRxTime = it.receiveNow ∧
      t.log.count .timeoutReported = s.log.count .timeoutReported

/-- spec/00_scope.md R6, spec/70_reset_and_hazards.md R182, spec/70_reset_and_hazards.md R193: no step changes a parameter, and what
was written, handed to the sink or logged stays as it was, new entries after it. -/
def Obligations.StepsKeepParametersAndOnlyAppend : Prop :=
  ∀ s t : State, step s = .next t →
    t.params = s.params ∧ s.written <+: t.written ∧ s.sink <+: t.sink ∧ s.log <+: t.log

/-- The machine after reset satisfies its invariant, and so does the machine before the first reset. -/
def Obligations.ResetSatisfiesTheInvariant : Prop := State.reset.Inv ∧ State.beforeReset.Inv ∧ State.reset.Dutiful

/-- Every step keeps the machine's invariant: R30 for the session, an injective code table (R132), the transport open exactly while
the loop runs (R147, R148), a session while it runs, and on the wire only frames that `ENCODE` returns (R94, R63). -/
def Obligations.StepKeepsTheInvariant : Prop :=
  ∀ s t : State, s.Inv → step s = .next t → t.Inv

/-- spec/41_heartbeat.md R111 and spec/43_control_loop.md R150: a loop whose host keeps its duties is never refused: every step
answers a next state, and the duties are still kept there. -/
def Obligations.DutifulLoopIsNeverRefused : Prop :=
  ∀ s : State, s.Inv → s.Dutiful → ∃ t, step s = .next t ∧ t.Inv ∧ t.Dutiful
end

