-- ==== Sys2Proof/Laws/Codec.lean ====
section
/-!
SUPPORT. The bytes of a frame that `ENCODE` builds, and the parts of a `DECODE`.
-/
namespace Sys2Proof.Machine

variable (p : Params) (id : CanId) (payload : List Byte)

@[simp] theorem buildFrame_0 : (buildFrame p id payload)[0] = Config.sync0 := rfl
@[simp] theorem buildFrame_1 : (buildFrame p id payload)[1] = Config.sync1 := rfl
@[simp] theorem buildFrame_2 : (buildFrame p id payload)[2] = p.rsv2 := rfl
@[simp] theorem buildFrame_3 : (buildFrame p id payload)[3] = hiByte id := rfl
@[simp] theorem buildFrame_4 : (buildFrame p id payload)[4] = p.rsv4 := rfl
@[simp] theorem buildFrame_5 : (buildFrame p id payload)[5] = loByte id := rfl
@[simp] theorem buildFrame_6 : (buildFrame p id payload)[6] = p.rsv6 := rfl
@[simp] theorem buildFrame_7 : (buildFrame p id payload)[7] = p.rsv7 := rfl
@[simp] theorem buildFrame_8 : (buildFrame p id payload)[8] = p.rsv8 := rfl
@[simp] theorem buildFrame_9 : (buildFrame p id payload)[9] = BitVec.ofNat 8 payload.length := rfl
@[simp] theorem buildFrame_18 : (buildFrame p id payload)[18] = p.rsv18 := rfl
@[simp] theorem buildFrame_19 : (buildFrame p id payload)[19] = cksum (frameBody p id payload) := rfl

/-- The payload window holds the slots. -/
theorem buildFrame_slot {i : Nat} (hi : i < 8) : (buildFrame p id payload)[10 + i]? = some (slot payload i) := by
  interval_cases i <;> rfl

/-- A slot within the payload holds its byte. -/
theorem slot_of_lt {i : Nat} (h : i < payload.length) : slot payload i = payload[i] := by simp [slot, h]

/-- A slot beyond the payload holds 0x00. -/
theorem slot_of_le {i : Nat} (h : payload.length ≤ i) : slot payload i = 0x00 := by simp [slot, h]

/-- The checksum of a frame depends on its first 19 bytes only. -/
theorem cksum_congr {f g : Frame} (h : f.toList.take 19 = g.toList.take 19) : cksum f = cksum g := by simp [cksum, h]

/-- The checksum byte that `ENCODE` writes is the checksum of the frame it is part of. -/
theorem cksum_buildFrame : cksum (buildFrame p id payload) = cksum (frameBody p id payload) := by
  apply cksum_congr
  simp only [buildFrame, Vector.toList_set]
  exact List.take_set_of_le (Nat.le_refl 19)

theorem hiByte_toNat (v : BitVec 16) : (hiByte v).toNat = v.toNat / 256 := by
  simp only [hiByte, BitVec.extractLsb'_toNat, Nat.shiftRight_eq_div_pow]
  omega

theorem loByte_toNat (v : BitVec 16) : (loByte v).toNat = v.toNat % 256 := by
  simp [loByte, BitVec.extractLsb'_toNat]

/-- The identifier rebuilt from two bytes, as a number. -/
theorem joinId_toNat (hi lo : Byte) : (joinId hi lo).toNat = hi.toNat * 256 + lo.toNat := by
  have h1 := hi.isLt
  have h2 := lo.isLt
  have hs : ((hi.setWidth 16 <<< 8 : BitVec 16)).toNat = hi.toNat <<< 8 := by
    simp [BitVec.toNat_shiftLeft, Nat.shiftLeft_eq]; omega
  rw [joinId, BitVec.toNat_or, hs, BitVec.toNat_setWidth, Nat.mod_eq_of_lt (by omega),
    ← Nat.shiftLeft_add_eq_or_of_lt h2, Nat.shiftLeft_eq]

/-- Splitting an identifier and joining it again. -/
theorem joinId_hiByte_loByte (v : CanId) : joinId (hiByte v) (loByte v) = v := by
  apply BitVec.eq_of_toNat_eq
  rw [joinId_toNat, hiByte_toNat, loByte_toNat]
  omega

theorem headerGood_iff {f : Frame} : headerGood f = true ↔ f[0] = Config.sync0 ∧ f[1] = Config.sync1 := by
  simp [headerGood]

theorem checksumGood_iff {f : Frame} : checksumGood f = true ↔ cksum f = f[19] := by simp [checksumGood]

/-- A frame `ENCODE` builds passes both tests of `DECODE`. -/
theorem buildFrame_good : headerGood (buildFrame p id payload) = true ∧ checksumGood (buildFrame p id payload) = true :=
  ⟨headerGood_iff.mpr ⟨rfl, rfl⟩, checksumGood_iff.mpr (cksum_buildFrame p id payload)⟩

theorem clampDlc_le (b : Byte) : clampDlc b ≤ 8 := Nat.min_le_right _ _

end Sys2Proof.Machine
end

