-- ==== Sys2Proof/Laws/State.lean ====
section
/-!
SUPPORT. What each update of the state leaves of each field: one lemma a field, each true by definition, so that no proof
unfolds an update.
-/
namespace Sys2Proof.Machine

variable (s : State)

/-! ### setSession -/

@[simp] theorem State.setSession_params (h : Option Session) : (s.setSession h).params = s.params := rfl
@[simp] theorem State.setSession_session (h : Option Session) : (s.setSession h).session = h := rfl
@[simp] theorem State.setSession_answer (h : Option Session) : (s.setSession h).answer = s.answer := rfl
@[simp] theorem State.setSession_requests (h : Option Session) : (s.setSession h).requests = s.requests := rfl
@[simp] theorem State.setSession_phase (h : Option Session) : (s.setSession h).phase = s.phase := rfl
@[simp] theorem State.setSession_schedule (h : Option Session) : (s.setSession h).schedule = s.schedule := rfl
@[simp] theorem State.setSession_clock (h : Option Session) : (s.setSession h).clock = s.clock := rfl
@[simp] theorem State.setSession_transportOpens (h : Option Session) : (s.setSession h).transportOpens = s.transportOpens := rfl
@[simp] theorem State.setSession_transportOpen (h : Option Session) : (s.setSession h).transportOpen = s.transportOpen := rfl
@[simp] theorem State.setSession_written (h : Option Session) : (s.setSession h).written = s.written := rfl
@[simp] theorem State.setSession_sink (h : Option Session) : (s.setSession h).sink = s.sink := rfl
@[simp] theorem State.setSession_log (h : Option Session) : (s.setSession h).log = s.log := rfl

/-! ### setAnswer -/

@[simp] theorem State.setAnswer_params (a : Answer) : (s.setAnswer a).params = s.params := rfl
@[simp] theorem State.setAnswer_session (a : Answer) : (s.setAnswer a).session = s.session := rfl
@[simp] theorem State.setAnswer_answer (a : Answer) : (s.setAnswer a).answer = a := rfl
@[simp] theorem State.setAnswer_requests (a : Answer) : (s.setAnswer a).requests = s.requests := rfl
@[simp] theorem State.setAnswer_phase (a : Answer) : (s.setAnswer a).phase = s.phase := rfl
@[simp] theorem State.setAnswer_schedule (a : Answer) : (s.setAnswer a).schedule = s.schedule := rfl
@[simp] theorem State.setAnswer_clock (a : Answer) : (s.setAnswer a).clock = s.clock := rfl
@[simp] theorem State.setAnswer_transportOpens (a : Answer) : (s.setAnswer a).transportOpens = s.transportOpens := rfl
@[simp] theorem State.setAnswer_transportOpen (a : Answer) : (s.setAnswer a).transportOpen = s.transportOpen := rfl
@[simp] theorem State.setAnswer_written (a : Answer) : (s.setAnswer a).written = s.written := rfl
@[simp] theorem State.setAnswer_sink (a : Answer) : (s.setAnswer a).sink = s.sink := rfl
@[simp] theorem State.setAnswer_log (a : Answer) : (s.setAnswer a).log = s.log := rfl

/-! ### setRequests -/

@[simp] theorem State.setRequests_params (rs : List (List Byte)) : (s.setRequests rs).params = s.params := rfl
@[simp] theorem State.setRequests_session (rs : List (List Byte)) : (s.setRequests rs).session = s.session := rfl
@[simp] theorem State.setRequests_answer (rs : List (List Byte)) : (s.setRequests rs).answer = s.answer := rfl
@[simp] theorem State.setRequests_requests (rs : List (List Byte)) : (s.setRequests rs).requests = rs := rfl
@[simp] theorem State.setRequests_phase (rs : List (List Byte)) : (s.setRequests rs).phase = s.phase := rfl
@[simp] theorem State.setRequests_schedule (rs : List (List Byte)) : (s.setRequests rs).schedule = s.schedule := rfl
@[simp] theorem State.setRequests_clock (rs : List (List Byte)) : (s.setRequests rs).clock = s.clock := rfl
@[simp] theorem State.setRequests_transportOpens (rs : List (List Byte)) : (s.setRequests rs).transportOpens = s.transportOpens := rfl
@[simp] theorem State.setRequests_transportOpen (rs : List (List Byte)) : (s.setRequests rs).transportOpen = s.transportOpen := rfl
@[simp] theorem State.setRequests_written (rs : List (List Byte)) : (s.setRequests rs).written = s.written := rfl
@[simp] theorem State.setRequests_sink (rs : List (List Byte)) : (s.setRequests rs).sink = s.sink := rfl
@[simp] theorem State.setRequests_log (rs : List (List Byte)) : (s.setRequests rs).log = s.log := rfl

/-! ### setPhase -/

@[simp] theorem State.setPhase_params (p : Phase) : (s.setPhase p).params = s.params := rfl
@[simp] theorem State.setPhase_session (p : Phase) : (s.setPhase p).session = s.session := rfl
@[simp] theorem State.setPhase_answer (p : Phase) : (s.setPhase p).answer = s.answer := rfl
@[simp] theorem State.setPhase_requests (p : Phase) : (s.setPhase p).requests = s.requests := rfl
@[simp] theorem State.setPhase_phase (p : Phase) : (s.setPhase p).phase = p := rfl
@[simp] theorem State.setPhase_schedule (p : Phase) : (s.setPhase p).schedule = s.schedule := rfl
@[simp] theorem State.setPhase_clock (p : Phase) : (s.setPhase p).clock = s.clock := rfl
@[simp] theorem State.setPhase_transportOpens (p : Phase) : (s.setPhase p).transportOpens = s.transportOpens := rfl
@[simp] theorem State.setPhase_transportOpen (p : Phase) : (s.setPhase p).transportOpen = s.transportOpen := rfl
@[simp] theorem State.setPhase_written (p : Phase) : (s.setPhase p).written = s.written := rfl
@[simp] theorem State.setPhase_sink (p : Phase) : (s.setPhase p).sink = s.sink := rfl
@[simp] theorem State.setPhase_log (p : Phase) : (s.setPhase p).log = s.log := rfl

/-! ### setSchedule -/

@[simp] theorem State.setSchedule_params (its : List Iteration) : (s.setSchedule its).params = s.params := rfl
@[simp] theorem State.setSchedule_session (its : List Iteration) : (s.setSchedule its).session = s.session := rfl
@[simp] theorem State.setSchedule_answer (its : List Iteration) : (s.setSchedule its).answer = s.answer := rfl
@[simp] theorem State.setSchedule_requests (its : List Iteration) : (s.setSchedule its).requests = s.requests := rfl
@[simp] theorem State.setSchedule_phase (its : List Iteration) : (s.setSchedule its).phase = s.phase := rfl
@[simp] theorem State.setSchedule_schedule (its : List Iteration) : (s.setSchedule its).schedule = its := rfl
@[simp] theorem State.setSchedule_clock (its : List Iteration) : (s.setSchedule its).clock = s.clock := rfl
@[simp] theorem State.setSchedule_transportOpens (its : List Iteration) : (s.setSchedule its).transportOpens = s.transportOpens := rfl
@[simp] theorem State.setSchedule_transportOpen (its : List Iteration) : (s.setSchedule its).transportOpen = s.transportOpen := rfl
@[simp] theorem State.setSchedule_written (its : List Iteration) : (s.setSchedule its).written = s.written := rfl
@[simp] theorem State.setSchedule_sink (its : List Iteration) : (s.setSchedule its).sink = s.sink := rfl
@[simp] theorem State.setSchedule_log (its : List Iteration) : (s.setSchedule its).log = s.log := rfl

/-! ### setClock -/

@[simp] theorem State.setClock_params (t : Timestamp) : (s.setClock t).params = s.params := rfl
@[simp] theorem State.setClock_session (t : Timestamp) : (s.setClock t).session = s.session := rfl
@[simp] theorem State.setClock_answer (t : Timestamp) : (s.setClock t).answer = s.answer := rfl
@[simp] theorem State.setClock_requests (t : Timestamp) : (s.setClock t).requests = s.requests := rfl
@[simp] theorem State.setClock_phase (t : Timestamp) : (s.setClock t).phase = s.phase := rfl
@[simp] theorem State.setClock_schedule (t : Timestamp) : (s.setClock t).schedule = s.schedule := rfl
@[simp] theorem State.setClock_clock (t : Timestamp) : (s.setClock t).clock = t := rfl
@[simp] theorem State.setClock_transportOpens (t : Timestamp) : (s.setClock t).transportOpens = s.transportOpens := rfl
@[simp] theorem State.setClock_transportOpen (t : Timestamp) : (s.setClock t).transportOpen = s.transportOpen := rfl
@[simp] theorem State.setClock_written (t : Timestamp) : (s.setClock t).written = s.written := rfl
@[simp] theorem State.setClock_sink (t : Timestamp) : (s.setClock t).sink = s.sink := rfl
@[simp] theorem State.setClock_log (t : Timestamp) : (s.setClock t).log = s.log := rfl

/-! ### setTransportOpen -/

@[simp] theorem State.setTransportOpen_params (b : Bool) : (s.setTransportOpen b).params = s.params := rfl
@[simp] theorem State.setTransportOpen_session (b : Bool) : (s.setTransportOpen b).session = s.session := rfl
@[simp] theorem State.setTransportOpen_answer (b : Bool) : (s.setTransportOpen b).answer = s.answer := rfl
@[simp] theorem State.setTransportOpen_requests (b : Bool) : (s.setTransportOpen b).requests = s.requests := rfl
@[simp] theorem State.setTransportOpen_phase (b : Bool) : (s.setTransportOpen b).phase = s.phase := rfl
@[simp] theorem State.setTransportOpen_schedule (b : Bool) : (s.setTransportOpen b).schedule = s.schedule := rfl
@[simp] theorem State.setTransportOpen_clock (b : Bool) : (s.setTransportOpen b).clock = s.clock := rfl
@[simp] theorem State.setTransportOpen_transportOpens (b : Bool) : (s.setTransportOpen b).transportOpens = s.transportOpens := rfl
@[simp] theorem State.setTransportOpen_transportOpen (b : Bool) : (s.setTransportOpen b).transportOpen = b := rfl
@[simp] theorem State.setTransportOpen_written (b : Bool) : (s.setTransportOpen b).written = s.written := rfl
@[simp] theorem State.setTransportOpen_sink (b : Bool) : (s.setTransportOpen b).sink = s.sink := rfl
@[simp] theorem State.setTransportOpen_log (b : Bool) : (s.setTransportOpen b).log = s.log := rfl

/-! ### addWritten -/

@[simp] theorem State.addWritten_params (t : Frame) : (s.addWritten t).params = s.params := rfl
@[simp] theorem State.addWritten_session (t : Frame) : (s.addWritten t).session = s.session := rfl
@[simp] theorem State.addWritten_answer (t : Frame) : (s.addWritten t).answer = s.answer := rfl
@[simp] theorem State.addWritten_requests (t : Frame) : (s.addWritten t).requests = s.requests := rfl
@[simp] theorem State.addWritten_phase (t : Frame) : (s.addWritten t).phase = s.phase := rfl
@[simp] theorem State.addWritten_schedule (t : Frame) : (s.addWritten t).schedule = s.schedule := rfl
@[simp] theorem State.addWritten_clock (t : Frame) : (s.addWritten t).clock = s.clock := rfl
@[simp] theorem State.addWritten_transportOpens (t : Frame) : (s.addWritten t).transportOpens = s.transportOpens := rfl
@[simp] theorem State.addWritten_transportOpen (t : Frame) : (s.addWritten t).transportOpen = s.transportOpen := rfl
@[simp] theorem State.addWritten_written (t : Frame) : (s.addWritten t).written = s.written ++ [t] := rfl
@[simp] theorem State.addWritten_sink (t : Frame) : (s.addWritten t).sink = s.sink := rfl
@[simp] theorem State.addWritten_log (t : Frame) : (s.addWritten t).log = s.log := rfl

/-! ### addSink -/

@[simp] theorem State.addSink_params (id : CanId) (payload : List Byte) : (s.addSink id payload).params = s.params := rfl
@[simp] theorem State.addSink_session (id : CanId) (payload : List Byte) : (s.addSink id payload).session = s.session := rfl
@[simp] theorem State.addSink_answer (id : CanId) (payload : List Byte) : (s.addSink id payload).answer = s.answer := rfl
@[simp] theorem State.addSink_requests (id : CanId) (payload : List Byte) : (s.addSink id payload).requests = s.requests := rfl
@[simp] theorem State.addSink_phase (id : CanId) (payload : List Byte) : (s.addSink id payload).phase = s.phase := rfl
@[simp] theorem State.addSink_schedule (id : CanId) (payload : List Byte) : (s.addSink id payload).schedule = s.schedule := rfl
@[simp] theorem State.addSink_clock (id : CanId) (payload : List Byte) : (s.addSink id payload).clock = s.clock := rfl
@[simp] theorem State.addSink_transportOpens (id : CanId) (payload : List Byte) : (s.addSink id payload).transportOpens = s.transportOpens := rfl
@[simp] theorem State.addSink_transportOpen (id : CanId) (payload : List Byte) : (s.addSink id payload).transportOpen = s.transportOpen := rfl
@[simp] theorem State.addSink_written (id : CanId) (payload : List Byte) : (s.addSink id payload).written = s.written := rfl
@[simp] theorem State.addSink_sink (id : CanId) (payload : List Byte) : (s.addSink id payload).sink = s.sink ++ [(id, payload)] := rfl
@[simp] theorem State.addSink_log (id : CanId) (payload : List Byte) : (s.addSink id payload).log = s.log := rfl

/-! ### addLog -/

@[simp] theorem State.addLog_params (e : LogEntry) : (s.addLog e).params = s.params := rfl
@[simp] theorem State.addLog_session (e : LogEntry) : (s.addLog e).session = s.session := rfl
@[simp] theorem State.addLog_answer (e : LogEntry) : (s.addLog e).answer = s.answer := rfl
@[simp] theorem State.addLog_requests (e : LogEntry) : (s.addLog e).requests = s.requests := rfl
@[simp] theorem State.addLog_phase (e : LogEntry) : (s.addLog e).phase = s.phase := rfl
@[simp] theorem State.addLog_schedule (e : LogEntry) : (s.addLog e).schedule = s.schedule := rfl
@[simp] theorem State.addLog_clock (e : LogEntry) : (s.addLog e).clock = s.clock := rfl
@[simp] theorem State.addLog_transportOpens (e : LogEntry) : (s.addLog e).transportOpens = s.transportOpens := rfl
@[simp] theorem State.addLog_transportOpen (e : LogEntry) : (s.addLog e).transportOpen = s.transportOpen := rfl
@[simp] theorem State.addLog_written (e : LogEntry) : (s.addLog e).written = s.written := rfl
@[simp] theorem State.addLog_sink (e : LogEntry) : (s.addLog e).sink = s.sink := rfl
@[simp] theorem State.addLog_log (e : LogEntry) : (s.addLog e).log = s.log ++ [e] := rfl

/-! ### Updates of updates -/

@[simp] theorem State.setAnswer_setAnswer (a b : Answer) : (s.setAnswer a).setAnswer b = s.setAnswer b := rfl
@[simp] theorem State.setSession_setSession (g h : Option Session) : (s.setSession g).setSession h = s.setSession h := rfl
theorem State.setSession_setAnswer (h : Option Session) (a : Answer) :
    (s.setAnswer a).setSession h = (s.setSession h).setAnswer a := rfl
theorem State.addSink_setAnswer (id : CanId) (payload : List Byte) (a : Answer) :
    (s.setAnswer a).addSink id payload = (s.addSink id payload).setAnswer a := rfl
theorem State.addLog_setAnswer (e : LogEntry) (a : Answer) :
    (s.setAnswer a).addLog e = (s.addLog e).setAnswer a := rfl

/-! ### The state after reset -/

@[simp] theorem Session.start_lastTxTime (tx rx : Timestamp) : (Session.start tx rx).lastTxTime = 0 := rfl
@[simp] theorem Session.start_lastRxTime (tx rx : Timestamp) : (Session.start tx rx).lastRxTime = 0 := rfl
@[simp] theorem Session.start_state (tx rx : Timestamp) : (Session.start tx rx).state = .unknown := rfl
@[simp] theorem Session.start_txInterval (tx rx : Timestamp) : (Session.start tx rx).txInterval = tx := rfl
@[simp] theorem Session.start_rxTimeout (tx rx : Timestamp) : (Session.start tx rx).rxTimeout = rx := rfl

end Sys2Proof.Machine
end

