-- ==== Sys2Proof/Laws/Ops.lean ====
section
/-!
SUPPORT. What each shared operation and each meaning can do, said once: the provers cite these and unfold nothing.
-/
namespace Sys2Proof.Machine

/-! ### Sequencing and answering -/

@[simp] theorem andThen_next (s : State) (k : State → Result) : andThen (.next s) k = k s := rfl
@[simp] theorem andThen_refused (r : Refusal) (k : State → Result) : andThen (.refused r) k = .refused r := rfl

/-- A sequence answers a next state exactly when both parts do. -/
theorem andThen_eq_next {o : Result} {k : State → Result} {t : State} :
    andThen o k = .next t ↔ ∃ s, o = .next s ∧ k s = .next t := by
  cases o with
  | next s => simp [andThen]
  | fault r => cases r
  | refused r => simp [andThen]

@[simp] theorem reply_eq (a : Answer) (s : State) : reply a s = .next (s.setAnswer a) := rfl

theorem withSession_none {s : State} {k : Session → Result} (h : s.session = none) :
    withSession s k = .refused .noSession := by simp [withSession, h]

theorem withSession_some {s : State} {k : Session → Result} {h : Session} (hs : s.session = some h) :
    withSession s k = k h := by simp [withSession, hs]

/-- A supervisor operation that answers has a session to work on. -/
theorem withSession_eq_next {s t : State} {k : Session → Result} :
    withSession s k = .next t ↔ ∃ h, s.session = some h ∧ k h = .next t := by
  cases hs : s.session <;> simp [withSession, hs]

/-! ### The codec -/

theorem parseFrame_of_bad_header {f : Frame} (h : headerGood f = false) : parseFrame f = .err .invalidHeader := by
  simp [parseFrame, h]

theorem parseFrame_of_bad_checksum {f : Frame} (h : headerGood f = true) (hc : checksumGood f = false) :
    parseFrame f = .err .checksumMismatch := by
  simp [parseFrame, h, hc]

theorem parseFrame_of_good {f : Frame} (h : headerGood f = true) (hc : checksumGood f = true) :
    parseFrame f = .ok (joinId f[3] f[5]) (memRead f 10 (clampDlc f[9])) := by
  simp [parseFrame, h, hc]

theorem decodeOp_eq (f : Frame) (s : State) : decodeOp f s = .next (s.setAnswer (.decoded (parseFrame f))) := by
  cases h : parseFrame f <;> simp [decodeOp, h, raiseFrameError]

theorem exec_decode (f : Frame) (s : State) : exec (.decode f) s = .next (s.setAnswer (.decoded (parseFrame f))) :=
  decodeOp_eq f s

theorem encodable_iff {id : CanId} {payload : List Byte} :
    encodable id payload = true ↔ id.toNat ≤ 0x7FF ∧ payload.length ≤ 8 := by
  simp [encodable]

theorem exec_encode_of_encodable {id : CanId} {payload : List Byte} (h : encodable id payload = true) (s : State) :
    exec (.encode id payload) s = .next (s.setAnswer (.frame (buildFrame s.params id payload))) := by
  simp [exec, execEncode, h]

theorem exec_encode_of_not_encodable {id : CanId} {payload : List Byte} (h : encodable id payload = false) (s : State) :
    exec (.encode id payload) s = .refused .encodePrecondition := by
  simp [exec, execEncode, h]

/-! ### The supervisor -/

/-- All that noting an identifier can do. -/
theorem noteReceive_eq_next {id : CanId} {now : Timestamp} {s t : State} (h : noteReceive id now s = .next t) :
    ∃ g, s.session = some g ∧
      ((id = Config.heartbeatIn ∧
        t = (s.setSession (some { g with lastRxTime := now, state := .healthy })).setAnswer .done) ∨
       (id ≠ Config.heartbeatIn ∧ t = s.setAnswer .done)) := by
  obtain ⟨g, hg, hk⟩ := withSession_eq_next.mp h
  refine ⟨g, hg, ?_⟩
  by_cases hid : id = Config.heartbeatIn
  · rw [if_pos hid] at hk
    exact .inl ⟨hid, by simpa using hk.symm⟩
  · rw [if_neg hid] at hk
    exact .inr ⟨hid, by simpa using hk.symm⟩

theorem noteReceive_heartbeat {s : State} {g : Session} (h : s.session = some g) (now : Timestamp) :
    noteReceive Config.heartbeatIn now s =
      .next ((s.setSession (some { g with lastRxTime := now, state := .healthy })).setAnswer .done) := by
  simp [noteReceive, withSession_some h]

theorem noteReceive_other {s : State} {g : Session} (h : s.session = some g) {id : CanId} (hid : id ≠ Config.heartbeatIn)
    (now : Timestamp) : noteReceive id now s = .next (s.setAnswer .done) := by
  rw [noteReceive, withSession_some h, if_neg hid, reply_eq]

/-- All that `HB_TICK` can do when it answers. -/
theorem exec_hbTick_eq_next {now : Timestamp} {s t : State} (h : exec (.hbTick now) s = .next t) :
    ∃ g, s.session = some g ∧ g.lastTxTime.toNat ≤ now.toNat ∧
      ((g.emitDue now = true ∧ t = (s.setSession (some { g with lastTxTime := now })).setAnswer
          (.emit Config.heartbeatOut (zeroPayload s.params))) ∨
       (g.emitDue now = false ∧ t = s.setAnswer .quiet)) := by
  obtain ⟨g, hg, hk⟩ := withSession_eq_next.mp h
  refine ⟨g, hg, ?_⟩
  by_cases hn : now.toNat < g.lastTxTime.toNat
  · simp [hn] at hk
  · refine ⟨by omega, ?_⟩
    cases he : g.emitDue now <;> simp [hn, he] at hk ⊢ <;> exact hk.symm

/-- All that `HB_CHECK` can do when it answers. -/
theorem exec_hbCheck_eq_next {now : Timestamp} {s t : State} (h : exec (.hbCheck now) s = .next t) :
    ∃ g, s.session = some g ∧
      ((g.armed = true ∧ g.lastRxTime.toNat ≤ now.toNat ∧ g.silent now = true ∧
          t = (s.setSession (some { g with state := .unhealthy, lastRxTime := 0 })).setAnswer (.report true)) ∨
       (g.armed = true ∧ g.lastRxTime.toNat ≤ now.toNat ∧ g.silent now = false ∧ t = s.setAnswer (.report false)) ∨
       (g.armed = false ∧ t = s.setAnswer (.report false))) := by
  obtain ⟨g, hg, hk⟩ := withSession_eq_next.mp h
  refine ⟨g, hg, ?_⟩
  cases ha : g.armed
  · simp [ha] at hk ⊢; exact hk.symm
  · by_cases hn : now.toNat < g.lastRxTime.toNat
    · simp [ha, hn] at hk
    · cases hs : g.silent now <;> simp [ha, hn, hs] at hk ⊢ <;> exact ⟨by omega, hk.symm⟩

theorem exec_reset (tx rx : Timestamp) (s : State) :
    exec (.reset tx rx) s = .next ((s.setSession (some (.start tx rx))).setAnswer .done) := rfl

theorem exec_hbRx (id : CanId) (now : Timestamp) (s : State) : exec (.hbRx id now) s = noteReceive id now s := rfl

/-! ### The payload encoders -/

theorem exec_cmdEncode (v : Variant) (sp : Speed) (s : State) : exec (.cmdEncode v sp) s =
    .next (s.setAnswer (.message Config.motorCmd [cmdCode s.params.cmdCodes v, speedByte v sp, 0, 0, 0, 0, 0, 0])) := rfl

theorem exec_estopEncode (s : State) : exec .estopEncode s =
    .next (s.setAnswer (.message Config.emergencyStop [0xFF, 0, 0, 0, 0, 0, 0, 0])) := rfl

theorem exec_configEncode (m : Byte) (t : TimeoutMs) (s : State) : exec (.configEncode m t) s =
    .next (s.setAnswer (.message Config.configFrame [m, hiByte t, loByte t, 0, 0, 0, 0, 0])) := rfl

/-! ### A received frame -/

theorem tryReceiveFrame_of_err {f : Frame} {k : FrameError} (h : parseFrame f = .err k) (s : State) :
    tryReceiveFrame f s = (none, (s.setAnswer (.decoded (.err k))).addLog (.frameDropped k)) := by
  simp [tryReceiveFrame, h, raiseFrameError, dropAndLog]

theorem tryReceiveFrame_of_ok {f : Frame} {id : CanId} {p : List Byte} (h : parseFrame f = .ok id p) (s : State) :
    tryReceiveFrame f s = (some (id, p), s.setAnswer (.decoded (.ok id p))) := by
  simp [tryReceiveFrame, h]

@[simp] theorem routeReceived_none (s : State) : routeReceived (none, s) = .next s := rfl
@[simp] theorem routeReceived_some (id : CanId) (p : List Byte) (s : State) :
    routeReceived (some (id, p), s) = route id p s := rfl

theorem receiveFrame_of_err {f : Frame} {k : FrameError} (h : parseFrame f = .err k) (s : State) :
    receiveFrame f s = .next ((s.setAnswer (.decoded (.err k))).addLog (.frameDropped k)) := by
  simp [receiveFrame, tryReceiveFrame_of_err h]

theorem receiveFrame_of_heartbeat {f : Frame} {id : CanId} {p : List Byte} (h : parseFrame f = .ok id p)
    (hid : id = Config.heartbeatIn) (s : State) : receiveFrame f s = noteReceive Config.heartbeatIn s.clock s := by
  subst hid
  cases hs : s.session <;> (simp [receiveFrame, tryReceiveFrame_of_ok h, route, noteReceive, withSession, hs]; try rfl)

theorem receiveFrame_of_other {f : Frame} {id : CanId} {p : List Byte} (h : parseFrame f = .ok id p)
    (hid : id ≠ Config.heartbeatIn) (s : State) :
    receiveFrame f s = .next ((s.setAnswer (.decoded (.ok id p))).addSink id p) := by
  simp only [receiveFrame, tryReceiveFrame_of_ok h, routeReceived_some, route, if_neg hid]

/-- All that receiving a frame can do when it answers. -/
theorem receiveFrame_eq_next {f : Frame} {s t : State} (h : receiveFrame f s = .next t) :
    (∃ k, parseFrame f = .err k ∧ t = (s.setAnswer (.decoded (.err k))).addLog (.frameDropped k)) ∨
    (∃ p g, parseFrame f = .ok Config.heartbeatIn p ∧ s.session = some g ∧
      t = (s.setSession (some { g with lastRxTime := s.clock, state := .healthy })).setAnswer .done) ∨
    (∃ id p, parseFrame f = .ok id p ∧ id ≠ Config.heartbeatIn ∧
      t = (s.setAnswer (.decoded (.ok id p))).addSink id p) := by
  cases hp : parseFrame f with
  | err k => exact .inl ⟨k, rfl, by simpa [receiveFrame_of_err hp] using h.symm⟩
  | ok id p =>
    by_cases hid : id = Config.heartbeatIn
    · subst hid
      rw [receiveFrame_of_heartbeat hp rfl] at h
      obtain ⟨g, hg, ⟨-, ht⟩ | ⟨hne, -⟩⟩ := noteReceive_eq_next h
      · exact .inr (.inl ⟨p, g, rfl, hg, ht⟩)
      · exact absurd rfl hne
    · exact .inr (.inr ⟨id, p, rfl, hid, by simpa [receiveFrame_of_other hp hid] using h.symm⟩)

/-- A received frame of any kind: one operation for the six rows. -/
theorem exec_frame_kind (k : FrameKind) (f : Frame) (s : State) : exec (k.instr f) s = receiveFrame f s := by
  cases k <;> rfl

end Sys2Proof.Machine
end

