-- ==== Sys2Proof/Laws/Loop.lean ====
section
/-!
SUPPORT. What the host's operations and a step can do, said once.
-/
namespace Sys2Proof.Machine

/-! ### The transport -/

theorem transportWrite_ok {s : State} (h : s.transportOpen = true) (t : Frame) :
    transportWrite true t s = s.addWritten t := by simp [transportWrite, h]

theorem transportWrite_failed (t : Frame) (s : State) : transportWrite false t s = s.addLog .writeFailed := by
  simp [transportWrite]

/-- All that a write can do. -/
theorem transportWrite_cases (ok : Bool) (t : Frame) (s : State) :
    transportWrite ok t s = s.addWritten t ∨ transportWrite ok t s = s.addLog .writeFailed := by
  cases h : (s.transportOpen && ok) <;> simp [transportWrite, h]

/-! ### Sending -/

theorem send_of_encodable {id : CanId} {payload : List Byte} (h : encodable id payload = true) (ok : Bool) (s : State) :
    send ok id payload s = .next (transportWrite ok (buildFrame s.params id payload)
      (s.setAnswer (.frame (buildFrame s.params id payload)))) := by
  simp [send, exec_encode_of_encodable h]

theorem send_of_not_encodable {id : CanId} {payload : List Byte} (h : encodable id payload = false) (ok : Bool)
    (s : State) : send ok id payload s = .refused .encodePrecondition := by
  simp [send, exec_encode_of_not_encodable h]

/-- The heartbeat's payload is always encodable, whatever `HB_DLC`. -/
theorem encodable_heartbeat (p : Params) : encodable Config.heartbeatOut (zeroPayload p) = true := by
  have := p.hbDlc.isLt
  simp only [encodable_iff, zeroPayload, List.length_replicate]
  exact ⟨by decide, by omega⟩

/-- The motor command's payload is always encodable. -/
theorem encodable_command (c b : Byte) : encodable Config.motorCmd [c, b, 0, 0, 0, 0, 0, 0] = true := rfl

theorem sendCmd_eq (ok : Bool) (c : MotorCommand) (s : State) :
    ∃ f, f = buildFrame s.params Config.motorCmd
        [cmdCode s.params.cmdCodes c.variant, speedByte c.variant c.speedPercent, 0, 0, 0, 0, 0, 0] ∧
      sendCmd ok c s = .next (transportWrite ok f (s.setAnswer (.frame f))) := by
  refine ⟨_, rfl, ?_⟩
  simp only [sendCmd, exec_cmdEncode, andThen_next, sendMessage, State.setAnswer_answer]
  rw [send_of_encodable (encodable_command _ _)]
  rfl

theorem sendHeartbeat_quiet {s : State} (h : s.answer = .quiet) (ok : Bool) : sendHeartbeat ok s = .next s := by
  simp [sendHeartbeat, h]

theorem sendHeartbeat_emit {s : State} (h : s.answer = .emit Config.heartbeatOut (zeroPayload s.params)) (ok : Bool) :
    sendHeartbeat ok s = .next (transportWrite ok (buildFrame s.params Config.heartbeatOut (zeroPayload s.params))
      (s.setAnswer (.frame (buildFrame s.params Config.heartbeatOut (zeroPayload s.params))))) := by
  simp only [sendHeartbeat, h]
  exact send_of_encodable (encodable_heartbeat s.params) ok s

/-! ### Receiving -/

theorem frameOfBytes_toList (f : Frame) : frameOfBytes f.toList = .ok f := by simp [frameOfBytes, Vector.toList]

theorem frameOfBytes_of_length_ne {bs : List Byte} (h : bs.length ≠ 20) : frameOfBytes bs = .error .badLength := by
  simp [frameOfBytes, h]

@[simp] theorem tryReceive_none (s : State) : tryReceive none s = (none, s) := rfl

theorem tryReceive_frame (f : Frame) (s : State) : tryReceive (some f.toList) s = tryReceiveFrame f s := by
  simp [tryReceive, frameOfBytes_toList]

theorem tryReceive_of_length_ne {bs : List Byte} (h : bs.length ≠ 20) (s : State) : tryReceive (some bs) s = (none, s) := by
  simp [tryReceive, frameOfBytes_of_length_ne h]

/-! ### Steps -/

theorem step_of_request {s : State} {bs : List Byte} {rest : List (List Byte)} (h : s.requests = bs :: rest) :
    step s = performRequest bs (s.setRequests rest) := by simp [step, h]

theorem step_of_no_request {s : State} (h : s.requests = []) : step s = loopStep s := by simp [step, h]

theorem performRequest_of_ok {bs : List Byte} {i : Instr} (h : decode .op bs = .ok i) (s : State) :
    performRequest bs s = exec i s := by simp [performRequest, h]

theorem performRequest_of_error {bs : List Byte} {e : DecodeError} (h : decode .op bs = .error e) (s : State) :
    performRequest bs s = .refused (refusalOf e) := by simp [performRequest, h]

theorem loopStep_start {s : State} (h : s.phase = .start) : loopStep s = startPhase s := by simp [loopStep, h]

theorem loopStep_idle {s : State} (h : s.phase ≠ .start) (hs : s.schedule = []) : loopStep s = .next s := by
  cases hp : s.phase <;> simp_all [loopStep]

theorem loopStep_iteration {s : State} {it : Iteration} {rest : List Iteration} (h : s.phase ≠ .start)
    (hs : s.schedule = it :: rest) : loopStep s = iterationStep it rest s := by
  cases hp : s.phase <;> simp_all [loopStep]

end Sys2Proof.Machine
end

