-- ==== Sys2Proof/Laws/PerInstr.lean ====
section
/-!
SUPPORT. Facts about each instruction as syntax: its encoding fits its row of spec/opcode_table.json.
-/
namespace Sys2Proof.Laws

/-- Mask and match of an instruction's row, byte by byte from the first (spec/30_encoding.md R69, R71). -/
def tableRow : Instr → List (Byte × Byte)
  | .reset _ _ => [(0x0F, 0x00)]
  | .encode _ _ => [(0x0F, 0x01)]
  | .decode _ => [(0x0F, 0x02)]
  | .hbTick _ => [(0x0F, 0x03)]
  | .hbRx _ _ => [(0x0F, 0x04)]
  | .hbCheck _ => [(0x0F, 0x05)]
  | .cmdEncode _ _ => [(0x0F, 0x08)]
  | .estopEncode => [(0x0F, 0x09)]
  | .configEncode _ _ => [(0x0F, 0x0A)]
  | .frame _ => [(0xFF, 0xAA), (0xFF, 0x55)]
  | .frameMotorCmd _ => [(0xFF, 0xAA), (0xFF, 0x55), (0, 0), (0xFF, 0x01), (0, 0), (0xFF, 0x00)]
  | .frameEmergencyStop _ => [(0xFF, 0xAA), (0xFF, 0x55), (0, 0), (0xFF, 0x01), (0, 0), (0xFF, 0x01)]
  | .frameConfig _ => [(0xFF, 0xAA), (0xFF, 0x55), (0, 0), (0xFF, 0x01), (0, 0), (0xFF, 0x02)]
  | .frameHeartbeatOut _ => [(0xFF, 0xAA), (0xFF, 0x55), (0, 0), (0xFF, 0x01), (0, 0), (0xFF, 0x03)]
  | .frameHeartbeatIn _ => [(0xFF, 0xAA), (0xFF, 0x55), (0, 0), (0xFF, 0x01), (0, 0), (0xFF, 0x04)]

/-- The encoding of a well-formed instruction fits its row: `(byte & mask) = match` for every byte of the row. -/
def EncodingFits.Statement (i : Instr) : Prop :=
  i.WellFormed → ∀ (k : Nat) (m v : Byte), (tableRow i)[k]? = some (m, v) →
    ∃ b : Byte, (Sys2Proof.encode i)[k]? = some b ∧ b &&& m = v

theorem EncodingFits.op {i : Instr} {v : Byte} (hr : tableRow i = [(0x0F, v)])
    (he : ∃ rest, Sys2Proof.encode i = v :: rest) (hv : v &&& 0x0F = v) : EncodingFits.Statement i := by
  intro _ k m w hk
  obtain ⟨rest, he⟩ := he
  rw [hr] at hk
  match k with
  | 0 =>
    simp only [List.getElem?_cons_zero, Option.some.injEq, Prod.mk.injEq] at hk
    exact ⟨v, by simp [he], by rw [← hk.1, ← hk.2]; exact hv⟩
  | n + 1 => simp at hk

/-- A frame fits the row of a kind whose header and identifier bytes it has. -/
theorem EncodingFits.group {i : Instr} {f : Frame} {id : Byte} (he : Sys2Proof.encode i = f.toList)
    (hr : tableRow i = [(0xFF, 0xAA), (0xFF, 0x55), (0, 0), (0xFF, 0x01), (0, 0), (0xFF, id)])
    (hw : i.WellFormed → f.HasSync ∧ f.HasId 0x01 id) : EncodingFits.Statement i := by
  intro h k m v hk
  obtain ⟨⟨h0, h1⟩, h3, h5⟩ := hw h
  rw [hr] at hk
  rw [he]
  have hb : ∀ x : Byte, x &&& 0xFF = x := fun x => BitVec.and_allOnes
  match k with
  | 0 => exact ⟨f[0], by simp, by simp at hk; simp [← hk.1, ← hk.2, h0]⟩
  | 1 => exact ⟨f[1], by simp, by simp at hk; simp [← hk.1, ← hk.2, h1]⟩
  | 2 => exact ⟨f[2], by simp, by simp at hk; simp [← hk.1, ← hk.2]⟩
  | 3 => exact ⟨f[3], by simp, by simp at hk; simp [← hk.1, ← hk.2, h3]⟩
  | 4 => exact ⟨f[4], by simp, by simp at hk; simp [← hk.1, ← hk.2]⟩
  | 5 => exact ⟨f[5], by simp, by simp at hk; rw [← hk.1, ← hk.2, h5]; exact hb id⟩
  | n + 6 => simp at hk

theorem EncodingFits.reset (tx rx : Timestamp) : EncodingFits.Statement (.reset tx rx) :=
  EncodingFits.op rfl ⟨_, rfl⟩ rfl
theorem EncodingFits.encode (id : CanId) (p : List Byte) : EncodingFits.Statement (.encode id p) :=
  EncodingFits.op rfl ⟨_, rfl⟩ rfl
theorem EncodingFits.decode (f : Frame) : EncodingFits.Statement (.decode f) := EncodingFits.op rfl ⟨_, rfl⟩ rfl
theorem EncodingFits.hbTick (now : Timestamp) : EncodingFits.Statement (.hbTick now) := EncodingFits.op rfl ⟨_, rfl⟩ rfl
theorem EncodingFits.hbRx (id : CanId) (now : Timestamp) : EncodingFits.Statement (.hbRx id now) :=
  EncodingFits.op rfl ⟨_, rfl⟩ rfl
theorem EncodingFits.hbCheck (now : Timestamp) : EncodingFits.Statement (.hbCheck now) :=
  EncodingFits.op rfl ⟨_, rfl⟩ rfl
theorem EncodingFits.cmdEncode (v : Variant) (sp : Speed) : EncodingFits.Statement (.cmdEncode v sp) :=
  EncodingFits.op rfl ⟨_, rfl⟩ rfl
theorem EncodingFits.estopEncode : EncodingFits.Statement .estopEncode := EncodingFits.op rfl ⟨_, rfl⟩ rfl
theorem EncodingFits.configEncode (m : Byte) (t : TimeoutMs) : EncodingFits.Statement (.configEncode m t) :=
  EncodingFits.op rfl ⟨_, rfl⟩ rfl

theorem EncodingFits.frame (f : Frame) : EncodingFits.Statement (.frame f) := by
  intro h k m v hk
  obtain ⟨⟨h0, h1⟩, -⟩ := h
  match k with
  | 0 => exact ⟨f[0], by simp [Sys2Proof.encode], by simp [tableRow] at hk; simp [← hk.1, ← hk.2, h0]⟩
  | 1 => exact ⟨f[1], by simp [Sys2Proof.encode], by simp [tableRow] at hk; simp [← hk.1, ← hk.2, h1]⟩
  | n + 2 => simp [tableRow] at hk

theorem EncodingFits.frameMotorCmd (f : Frame) : EncodingFits.Statement (.frameMotorCmd f) :=
  EncodingFits.group rfl rfl id
theorem EncodingFits.frameEmergencyStop (f : Frame) : EncodingFits.Statement (.frameEmergencyStop f) :=
  EncodingFits.group rfl rfl id
theorem EncodingFits.frameConfig (f : Frame) : EncodingFits.Statement (.frameConfig f) := EncodingFits.group rfl rfl id
theorem EncodingFits.frameHeartbeatOut (f : Frame) : EncodingFits.Statement (.frameHeartbeatOut f) :=
  EncodingFits.group rfl rfl id
theorem EncodingFits.frameHeartbeatIn (f : Frame) : EncodingFits.Statement (.frameHeartbeatIn f) :=
  EncodingFits.group rfl rfl id

end Sys2Proof.Laws
end

