-- ==== Sys2Proof/Tests/Slice0.lean ====
section
/-!
SUPPORT. The author's tests. Expected results are the vectors of spec/95_test_vectors.md (named V-…) and the tables of
spec/30_encoding.md, not the model's own output. After them, for every obligation with hypotheses, a `witness_…`: states and
operands that meet the hypotheses, at the boundary of each clause.
-/
namespace Sys2Proof.Tests
open Sys2Proof Sys2Proof.Machine

/-! ### Helpers -/

/-- A session with the default intervals. -/
def ses (ltx lrx : Timestamp) (st : HealthState) : Session :=
  { lastTxTime := ltx, lastRxTime := lrx, state := st, txInterval := 1000, rxTimeout := 5000 }

/-- A state in a session. -/
def sup (ltx lrx : Timestamp) (st : HealthState) : State := { State.reset with session := some (ses ltx lrx st) }

/-- The outcome is a next state that satisfies `p`. -/
def holds (o : Result) (p : State → Bool) : Bool :=
  match o with
  | .next t => p t
  | .fault _ => false
  | .refused _ => false

/-- The outcome is this refusal. -/
def refusedWith (o : Result) (r : Refusal) : Bool :=
  match o with
  | .next _ => false
  | .fault _ => false
  | .refused r' => r' == r

/-- The outcome is a next state with this answer and this session. -/
def gives (o : Result) (a : Answer) (h : Session) : Bool := holds o fun t => t.answer == a && t.session == some h

/-- The bytes decode to this instruction. -/
def reads (fmt : Format) (bs : List Byte) (i : Instr) : Bool :=
  match decode fmt bs with
  | .ok j => j == i
  | .error _ => false

/-- An iteration in which nothing happens but the passing of time. -/
def quietIt (now : Timestamp) : Iteration := arrival [] { State.reset with clock := now }

/-- A state of the loop. -/
def loopAt (p : Phase) (it : Iteration) (s : State) : State := { s with phase := p, schedule := [it] }

def zeros (n : Nat) : List Byte := List.replicate n 0

/-! ### Frames of the vectors -/

def vE1 : Frame := #v[0xAA, 0x55, 0x01, 0x01, 0x01, 0x00, 0x01, 0, 0, 0x08, 0x03, 0x32, 0, 0, 0, 0, 0, 0, 0, 0x41]
def vE3 : Frame := #v[0xAA, 0x55, 0x01, 0x07, 0x01, 0xFF, 0x01, 0, 0, 0x03, 0x01, 0x02, 0x03, 0, 0, 0, 0, 0, 0, 0x12]
def vE5 : Frame := #v[0xAA, 0x55, 0x01, 0x01, 0x01, 0x03, 0x01, 0, 0, 0x08, 0, 0, 0, 0, 0, 0, 0, 0, 0, 0x0F]
def vE7 : Frame := #v[0xAA, 0x55, 0x01, 0x01, 0x01, 0x00, 0x01, 0, 0, 0x01, 0xFB, 0, 0, 0, 0, 0, 0, 0, 0, 0x00]
def vE9 : Frame := #v[0xAA, 0x55, 0x01, 0x01, 0x01, 0x01, 0x01, 0, 0, 0x08, 0xFF, 0, 0, 0, 0, 0, 0, 0, 0, 0x0C]
def vE10 : Frame := #v[0xAA, 0x55, 0x01, 0x01, 0x01, 0x02, 0x01, 0, 0, 0x08, 0x50, 0x13, 0x88, 0, 0, 0, 0, 0, 0, 0xF9]
def vE11 : Frame := #v[0xAA, 0x55, 0x01, 0x01, 0x01, 0x04, 0x01, 0, 0, 0x08, 0, 0, 0, 0, 0, 0, 0, 0, 0, 0x10]
def vE12 : Frame := #v[0xAA, 0x55, 0x01, 0x01, 0x01, 0x00, 0x01, 0, 0, 0x08, 0, 0, 0, 0, 0, 0, 0, 0, 0, 0x0C]
def vE13 : Frame := #v[0xAA, 0x55, 0x01, 0x01, 0x01, 0x00, 0x01, 0, 0, 0x08, 0x01, 0x64, 0, 0, 0, 0, 0, 0, 0, 0x71]
def vE14 : Frame := #v[0xAA, 0x55, 0x01, 0x01, 0x01, 0x00, 0x01, 0, 0, 0x02, 0x03, 0x32, 0, 0, 0, 0, 0, 0, 0, 0x3B]
def vD3 : Frame := #v[0xAB, 0x55, 0x01, 0x01, 0x01, 0x00, 0x01, 0, 0, 0x08, 0x03, 0x32, 0, 0, 0, 0, 0, 0, 0, 0x42]
def vD3b : Frame := #v[0xAA, 0x54, 0x01, 0x01, 0x01, 0x00, 0x01, 0, 0, 0x08, 0x03, 0x32, 0, 0, 0, 0, 0, 0, 0, 0x40]
def vD4 : Frame := #v[0x00, 0x55, 0x01, 0x01, 0x01, 0x00, 0x01, 0, 0, 0x08, 0x03, 0x32, 0, 0, 0, 0, 0, 0, 0, 0x00]
def vD5 : Frame := #v[0xAA, 0x55, 0x01, 0x01, 0x01, 0x00, 0x01, 0, 0, 0x08, 0x03, 0x32, 0, 0, 0, 0, 0, 0, 0, 0x40]
def vD6b : Frame := #v[0xAA, 0x55, 0x01, 0x01, 0x01, 0x00, 0x01, 0, 0, 0xFF, 0x03, 0x32, 0, 0, 0, 0, 0, 0, 0, 0x38]
def vD7 : Frame := #v[0xAA, 0x55, 0x01, 0xFF, 0x01, 0x04, 0x01, 0, 0, 0x08, 0, 0, 0, 0, 0, 0, 0, 0, 0, 0x0E]
def vD8 : Frame := #v[0xAA, 0x55, 0x00, 0x01, 0x00, 0x04, 0x00, 0, 0, 0x08, 0, 0, 0, 0, 0, 0, 0, 0, 0, 0x0D]
def vD8b : Frame :=
  #v[0xAA, 0x55, 0x7E, 0x01, 0xFF, 0x04, 0x10, 0x20, 0x30, 0x08, 0, 0, 0, 0, 0, 0, 0, 0, 0x99, 0x83]
def vD9 : Frame := #v[0xAA, 0x55, 0x01, 0x01, 0x01, 0x00, 0x01, 0, 0, 0x02, 0x03, 0x32, 0xDE, 0, 0, 0, 0, 0xAD, 0, 0xC6]
def vD15 : Frame := #v[0xAA, 0x55, 0x01, 0x01, 0x01, 0x04, 0x01, 0, 0, 0x00, 0, 0, 0, 0, 0, 0, 0, 0, 0, 0x08]

/-! ### WellFormed refuses -/

theorem test_wf_payload_too_long : ¬ (Instr.encode 0x100 (zeros 256)).WellFormed := by
  change ¬ (List.replicate 256 (0 : Byte)).length ≤ 255
  rw [List.length_replicate]
  decide
theorem test_wf_frame_bad_header : ¬ (Instr.frame vD3).WellFormed := by decide
theorem test_wf_frame_named : ¬ (Instr.frame vE1).WellFormed := by decide
theorem test_wf_motor_bad_header : ¬ (Instr.frameMotorCmd vD3b).WellFormed := by decide
theorem test_wf_motor_other_id : ¬ (Instr.frameMotorCmd vE9).WellFormed := by decide
theorem test_wf_estop_bad_header : ¬ (Instr.frameEmergencyStop (vE9.set 0 0)).WellFormed := by decide
theorem test_wf_estop_other_id : ¬ (Instr.frameEmergencyStop vE10).WellFormed := by decide
theorem test_wf_config_bad_header : ¬ (Instr.frameConfig (vE10.set 1 0)).WellFormed := by decide
theorem test_wf_config_other_id : ¬ (Instr.frameConfig vE5).WellFormed := by decide
theorem test_wf_heartbeat_out_bad_header : ¬ (Instr.frameHeartbeatOut (vE5.set 0 0)).WellFormed := by decide
theorem test_wf_heartbeat_out_other_id : ¬ (Instr.frameHeartbeatOut vE11).WellFormed := by decide
theorem test_wf_heartbeat_in_bad_header : ¬ (Instr.frameHeartbeatIn (vE11.set 1 0)).WellFormed := by decide
theorem test_wf_heartbeat_in_high_bits : ¬ (Instr.frameHeartbeatIn vD7).WellFormed := by decide

/-! ### Decoding: one word for each constructor, its selector from R71 or its bytes from R60 and R69 -/

theorem test_decode_reset :
    reads .op [0x00, 0, 0, 0, 0, 0, 0, 0x03, 0xE8, 0, 0, 0, 0, 0, 0, 0x13, 0x88] (.reset 1000 5000) := by decide
theorem test_decode_encode : reads .op [0x01, 0x01, 0x00, 0x02, 0x03, 0x32] (.encode 0x100 [0x03, 0x32]) := by decide
theorem test_decode_decode : reads .op (0x02 :: vE1.toList) (.decode vE1) := by decide
theorem test_decode_hb_tick : reads .op [0x03, 0, 0, 0, 0, 0, 0, 0x03, 0xE7] (.hbTick 999) := by decide
theorem test_decode_hb_rx : reads .op [0x04, 0xFF, 0x04, 0, 0, 0, 0, 0, 0, 0, 0x64] (.hbRx 0xFF04 100) := by decide
theorem test_decode_hb_check : reads .op [0x05, 0x80, 0, 0, 0, 0, 0, 0x1B, 0xBC]
    (.hbCheck 0x8000000000001BBC) := by decide
theorem test_decode_cmd_encode :
    reads .op [0x08, 0x01, 0xFF, 0xFF, 0xFF, 0xFB] (.cmdEncode .forward (-5)) := by decide
theorem test_decode_estop_encode : reads .op [0x09] .estopEncode := by decide
theorem test_decode_config_encode : reads .op [0x0A, 0x50, 0x13, 0x88] (.configEncode 80 5000) := by decide
theorem test_decode_frame : reads .f20 vD7.toList (.frame vD7) := by decide
theorem test_decode_frame_motor_cmd : reads .f20 vE1.toList (.frameMotorCmd vE1) := by decide
theorem test_decode_frame_emergency_stop : reads .f20 vE9.toList (.frameEmergencyStop vE9) := by decide
theorem test_decode_frame_config : reads .f20 vE10.toList (.frameConfig vE10) := by decide
theorem test_decode_frame_heartbeat_out : reads .f20 vE5.toList (.frameHeartbeatOut vE5) := by decide
theorem test_decode_frame_heartbeat_in : reads .f20 vD8b.toList (.frameHeartbeatIn vD8b) := by decide

theorem test_decode_ignores_bits_above_selector : reads .op [0xF9] .estopEncode := by decide
theorem test_decode_short_request : decode .op [0x0A, 0x50, 0x13] = .error .truncated := rfl
theorem test_decode_bad_variant : decode .op [0x08, 5, 0, 0, 0, 0] = .error (.badVariant 5) := rfl
theorem test_decode_bad_header : decode .f20 vD3.toList = .error .badHeader := rfl
theorem test_decode_bad_length : decode .f20 (zeros 19) = .error .badLength := rfl

/-- A table word is fetched and run as the first instruction after reset, in either format. -/
theorem test_fetch_word_request :
    holds (step (State.reset.withFetchWord 8 0x9)) fun t =>
      t.answer == .message 0x101 [0xFF, 0, 0, 0, 0, 0, 0, 0] && t.requests == [] := by decide
theorem test_fetch_word_group :
    holds (step (State.reset.withFetchWord 160 0x05000000000000000000000000000400010055AA)) fun t =>
      t.healthy == some true && t.phase == .tick := by decide

/-! ### CKSUM: V-K1, V-K2, V-K3, V-K6 -/

theorem test_cksum_zero : cksum (Vector.replicate 20 0x00) = 0x01 := by decide
theorem test_cksum_ones : cksum (Vector.replicate 20 0xFF) = 0xEE := by decide
theorem test_cksum_wrap : cksum (((Vector.replicate 20 0x00 : Frame).set 0 0xAA).set 1 0x55) = 0x00 := by decide
theorem test_cksum_ff : cksum (vE7.set 10 0xFA) = 0xFF := by decide

/-! ### The operations: V-E3, V-E7, V-D4, V-D6b, V-H3, V-H2, V-H14, V-H11, V-H18, V-H28, V-C4, V-C7, V-C8, V-C10, V-C11 -/

theorem test_reset_mid_session :
    gives (exec (.reset 7 9) (sup 5000 2000 .healthy)) .done
      { lastTxTime := 0, lastRxTime := 0, state := .unknown, txInterval := 7, rxTimeout := 9 } := by decide
theorem test_encode_short : holds (exec (.encode 0x7FF [1, 2, 3]) State.reset) fun t => t.answer == .frame vE3 := by decide
theorem test_encode_checksum_wraps :
    holds (exec (.encode 0x100 [0xFB]) State.reset) fun t => t.answer == .frame vE7 := by decide
theorem test_decode_header_first :
    holds (exec (.decode vD4) State.reset) fun t => t.answer == .decoded (.err .invalidHeader) := by decide
theorem test_decode_clamps_dlc :
    holds (exec (.decode vD6b) State.reset) fun t => t.answer == .decoded (.ok 0x100 [3, 0x32, 0, 0, 0, 0, 0, 0]) := by decide
theorem test_hb_tick_at_interval :
    gives (exec (.hbTick 1000) (sup 0 0 .unknown)) (.emit 0x103 (zeros 8)) (ses 1000 0 .unknown) := by decide
theorem test_hb_tick_early : gives (exec (.hbTick 999) (sup 0 0 .unknown)) .quiet (ses 0 0 .unknown) := by decide
theorem test_hb_rx_compares_16_bits :
    gives (exec (.hbRx 0xFF04 100) (sup 0 0 .unknown)) .done (ses 0 0 .unknown) := by decide
theorem test_hb_rx_recovers :
    gives (exec (.hbRx 0x104 8000) (sup 0 0 .unhealthy)) .done (ses 0 8000 .healthy) := by decide
theorem test_hb_check_past_limit :
    gives (exec (.hbCheck 7001) (sup 0 2000 .healthy)) (.report true) (ses 0 0 .unhealthy) := by decide
theorem test_hb_check_unknown_armed :
    gives (exec (.hbCheck 7100) (sup 0 2000 .unknown)) (.report true) (ses 0 0 .unhealthy) := by decide
theorem test_cmd_encode_code :
    holds (exec (.cmdEncode .turnLeft 50) State.reset) fun t =>
      t.answer == .message 0x100 [0x03, 0x32, 0, 0, 0, 0, 0, 0] := by decide
theorem test_cmd_encode_most_negative :
    holds (exec (.cmdEncode .forward 0x80000000) State.reset) fun t =>
      t.answer == .message 0x100 [0x01, 0, 0, 0, 0, 0, 0, 0] := by decide
theorem test_estop_encode :
    holds (exec .estopEncode State.beforeReset) fun t =>
      t.answer == .message 0x101 [0xFF, 0, 0, 0, 0, 0, 0, 0] := by decide
theorem test_config_encode_no_clamp :
    holds (exec (.configEncode 255 65535) State.reset) fun t =>
      t.answer == .message 0x102 [0xFF, 0xFF, 0xFF, 0, 0, 0, 0, 0] := by decide
theorem test_config_encode_byte_order :
    holds (exec (.configEncode 0 256) State.reset) fun t =>
      t.answer == .message 0x102 [0x00, 0x01, 0x00, 0, 0, 0, 0, 0] := by decide

/-! ### Received frames (R143, R163; V-D5, V-D7, V-D8b) -/

theorem test_frame_to_sink :
    holds (exec (.frame vD7) (sup 0 0 .unknown)) fun t =>
      t.sink == [(0xFF04, zeros 8)] && t.healthy == some false := by decide
theorem test_frame_motor_cmd_corrupt :
    holds (exec (.frameMotorCmd vD5) (sup 0 0 .unknown)) fun t =>
      t.sink == [] && t.log == [.frameDropped .checksumMismatch] := by decide
theorem test_frame_emergency_stop_to_sink :
    holds (exec (.frameEmergencyStop vE9) State.reset) fun t => t.sink == [(0x101, 0xFF :: zeros 7)] := by decide
theorem test_frame_config_to_sink :
    holds (exec (.frameConfig vE10) State.reset) fun t =>
      t.sink == [(0x102, [0x50, 0x13, 0x88, 0, 0, 0, 0, 0])] := by decide
theorem test_frame_heartbeat_out_is_no_receive :
    holds (exec (.frameHeartbeatOut vE5) (sup 0 0 .unknown)) fun t =>
      t.sink == [(0x103, zeros 8)] && t.session == some (ses 0 0 .unknown) := by decide
theorem test_frame_heartbeat_in_refreshes :
    holds (exec (.frameHeartbeatIn vD8b) { sup 7000 0 .unhealthy with clock := 9000 }) fun t =>
      t.sink == [] && t.session == some (ses 7000 9000 .healthy) := by decide

/-! ### The loop (P3 of spec/95_test_vectors.md, one step each) -/

theorem test_loop_receive :
    holds (step (loopAt .receive { quietIt 1000 with group := some vE11.toList } State.reset)) fun t =>
      t.session == some (ses 0 1000 .healthy) && t.phase == .tick := by decide
theorem test_loop_tick :
    holds (step (loopAt .tick (quietIt 1000) (sup 0 1000 .healthy))) fun t =>
      t.session == some (ses 1000 1000 .healthy) && t.written == [vE5] && t.phase == .check := by decide
theorem test_loop_check :
    holds (step (loopAt .check (quietIt 6500) (sup 6000 1000 .healthy))) fun t =>
      t.session == some (ses 6000 0 .unhealthy) && t.log == [.timeoutReported] && t.phase == .command := by decide
theorem test_loop_command :
    holds (step (loopAt .command { quietIt 1000 with event := some ⟨.forward, 150⟩ } State.reset)) fun t =>
      t.written == [vE13] && t.phase == .sleep := by decide
theorem test_loop_shutdown :
    holds (step (loopAt .receive { quietIt 2000 with shutdown := true } (sup 2000 1000 .healthy))) fun t =>
      t.written == [vE12] && t.session == none && t.phase == .ended && !t.transportOpen := by decide
theorem test_loop_write_failure :
    holds (step (loopAt .tick { quietIt 1000 with heartbeatWriteOk := false } (sup 0 1000 .healthy))) fun t =>
      t.session == some (ses 1000 1000 .healthy) && t.written == [] && t.log == [.writeFailed] := by decide
theorem test_start : holds (step State.beforeReset) fun t => t == State.reset := by decide
theorem test_start_fails :
    holds (step { State.beforeReset with transportOpens := false }) fun t =>
      t.phase == .exited && t.session == none && t.log == [.openFailed] := by decide
theorem test_request_malformed :
    refusedWith (step { State.reset with requests := [[0x0A]] }) .malformedRequest := by decide

/-! ### Witnesses: the hypotheses of the obligations are met, at the boundary of each clause -/

theorem witness_CksumArithmeticLaws :
    byteSum (((Vector.replicate 20 0x00 : Frame).set 0 0xAA).set 1 0x55) % 256 = 255 ∧
    ((18 : Fin 20).val < 19 ∧ (0x01 : Byte) ≠ vE1[(18 : Fin 20)]) ∧
    (vE1 ≠ vD9 ∧ byteSum (vE1.set 18 1) % 256 = byteSum (vE1.set 2 2) % 256) ∧
    ((0 : Fin 20).val < 19 ∧ (18 : Fin 20).val < 19) := by decide

theorem witness_EncodeBuildsTheFrame :
    Legal 0x7FF (zeros 8) ∧ Legal 0 [] ∧ ¬ Legal 0x800 [] ∧ ¬ Legal 0x100 (zeros 9) ∧ State.reset.params = .default ∧
    holds (exec (.encode 0x7FF (zeros 8)) State.reset) (fun t => t.answer != .done) ∧
    refusedWith (exec (.encode 0x800 []) State.reset) .encodePrecondition ∧
    refusedWith (exec (.encode 0x100 (zeros 9)) State.reset) .encodePrecondition := by decide

theorem witness_EncodedFramesAreDistinctAndWellMade :
    Legal 0x100 [0x03, 0x32] ∧ Legal 0x100 [0x03, 0x32, 0, 0, 0, 0, 0, 0] ∧ State.reset.params = (sup 0 0 .healthy).params ∧
    ((0x100, [0x03, 0x32]) : CanId × List Byte) ≠ (0x100, [0x03, 0x32, 0, 0, 0, 0, 0, 0]) ∧
    exec (.encode 0x100 [0x03, 0x32]) State.reset = .next { State.reset with answer := .frame vE14 } ∧
    exec (.encode 0x100 [0x03, 0x32, 0, 0, 0, 0, 0, 0]) (sup 0 0 .healthy) =
      .next { sup 0 0 .healthy with answer := .frame vE1 } :=
  ⟨by decide, by decide, rfl, by decide, rfl, rfl⟩

theorem witness_DecodeTestsHeaderThenChecksum :
    (vD3[0] ≠ 0xAA ∨ vD3[1] ≠ 0x55) ∧ (vD3b[0] ≠ 0xAA ∨ vD3b[1] ≠ 0x55) ∧
    (vD5[0] = 0xAA ∧ vD5[1] = 0x55 ∧ vD5[19].toNat ≠ (byteSum vD5 + 1) % 256) ∧
    (vE7[0] = 0xAA ∧ vE7[1] = 0x55 ∧ vE7[19].toNat = (byteSum vE7 + 1) % 256) ∧
    (vD6b[0] = 0xAA ∧ vD6b[1] = 0x55 ∧ vD6b[19].toNat = (byteSum vD6b + 1) % 256) ∧
    (vD15[0] = 0xAA ∧ vD15[1] = 0x55 ∧ vD15[19].toNat = (byteSum vD15 + 1) % 256) := by decide

theorem witness_DecodeUndoesEncode :
    Legal 0x7FF (zeros 8) ∧ 7 < vD7[3].toNat ∧
    exec (.decode vD7) State.reset = .next { State.reset with answer := .decoded (.ok 0xFF04 (zeros 8)) } ∧
    State.reset.params = .default := ⟨by decide, by decide, rfl, rfl⟩

theorem witness_SingleBitCorruptionIsRejected :
    Legal 0x7FF (zeros 8) ∧ (vD3[0] ≠ 0xAA ∨ vD3[1] ≠ 0x55) := by decide

theorem witness_ReservedAndFillerBytesAreIgnored :
    exec (.decode vD8) State.reset = .next { State.reset with answer := .decoded (.ok 0x104 (zeros 8)) } ∧
    exec (.decode vD8b) State.reset = .next { State.reset with answer := .decoded (.ok 0x104 (zeros 8)) } ∧
    vD8[3] = vD8b[3] ∧ vD8[5] = vD8b[5] ∧ min vD8[9].toNat 8 = min vD8b[9].toNat 8 ∧
    (∀ i < min vD8[9].toNat 8, vD8[10 + i]? = vD8b[10 + i]?) := ⟨rfl, rfl, by decide⟩

theorem witness_OnlyDecodeRaisesFrameErrors :
    holds (exec (.decode vD5) State.reset) (fun t => t.answer == .decoded (.err .checksumMismatch)) ∧
    holds (exec (.decode vD3) State.reset) (fun t => t.answer == .decoded (.err .invalidHeader)) ∧
    holds (exec (.frameMotorCmd vD5) State.reset) (fun t => t.answer == .decoded (.err .checksumMismatch)) := by decide

theorem witness_CodecKeepsNothing :
    Legal 0x7FF (zeros 8) ∧ State.reset.params = (sup 5000 2000 .healthy).params ∧ State.reset ≠ sup 5000 2000 .healthy := by
  decide

theorem witness_ResetStartsASession :
    exec (.reset 7 9) (sup 5000 2000 .healthy) =
      .next { State.reset with session := some (.start 7 9) } := rfl

theorem witness_SupervisorNeedsAResetAndForgetsAtOne :
    State.beforeReset.session = none ∧ Legal 0x7FF (zeros 8) ∧ (1000 : Timestamp).toNat ≤ (1000 : Timestamp).toNat ∧
    holds (performAll [.reset 1000 5000, .hbTick 1000] (sup 999 0 .healthy))
      (fun t => t.answer == .emit 0x103 (zeros 8)) ∧
    holds (exec (.hbTick 0) State.reset) (fun t => t.session == some (ses 0 0 .unknown)) ∧
    holds (exec (.reset 1000 5000) (sup 9 0 .unhealthy)) (fun t => t.session == some (ses 0 0 .unknown)) := by decide

theorem witness_TickEmitsWhenTheIntervalHasPassed :
    (sup 1000 0 .unhealthy).session = some (ses 1000 0 .unhealthy) ∧
    ((ses 1000 0 .unhealthy).lastTxTime.toNat ≤ (2000 : Timestamp).toNat ∧
      (ses 1000 0 .unhealthy).txInterval.toNat ≤ (2000 : Timestamp).toNat - (ses 1000 0 .unhealthy).lastTxTime.toNat) ∧
    ((ses 1000 0 .unhealthy).lastTxTime.toNat ≤ (1999 : Timestamp).toNat ∧
      (1999 : Timestamp).toNat - (ses 1000 0 .unhealthy).lastTxTime.toNat < (ses 1000 0 .unhealthy).txInterval.toNat) ∧
    (999 : Timestamp).toNat < (ses 1000 0 .unhealthy).lastTxTime.toNat ∧ State.reset.params = .default := by decide

theorem witness_EmissionsAreNeverCloserThanTheInterval :
    State.reset.session = some (ses 0 0 .unknown) ∧
    exec (.hbTick 1000) State.reset =
      .next { sup 1000 0 .unknown with answer := .emit 0x103 (zeros 8) } ∧
    (∀ i ∈ [Instr.hbRx 0x104 1500, .hbTick 1999], ∀ tx rx, i ≠ .reset tx rx) ∧
    performAll [.hbRx 0x104 1500, .hbTick 1999] { sup 1000 0 .unknown with answer := .emit 0x103 (zeros 8) } =
      .next { sup 1000 1500 .healthy with answer := .quiet } ∧
    exec (.hbTick 2000) { sup 1000 1500 .healthy with answer := .quiet } =
      .next { sup 2000 1500 .healthy with answer := .emit 0x103 (zeros 8) } :=
  ⟨rfl, rfl, by simp, rfl, rfl⟩

theorem witness_ReceiveNotesOnlyTheHeartbeatIdentifier :
    (sup 0 0 .unhealthy).session = some (ses 0 0 .unhealthy) ∧ (0xFF04 : CanId) ≠ 0x104 ∧ (0x103 : CanId) ≠ 0x104 := by
  decide

theorem witness_CheckReportsSilenceBeyondTheTimeout :
    ((ses 0 0 .unhealthy).state = .unhealthy) ∧
    ((ses 0 0 .unknown).state = .unknown ∧ (ses 0 0 .unknown).lastRxTime = 0) ∧
    (((ses 0 2000 .unknown).state = .unknown ∧ (ses 0 2000 .unknown).lastRxTime ≠ 0) ∧
      (1999 : Timestamp).toNat < (ses 0 2000 .unknown).lastRxTime.toNat) ∧
    ((ses 0 2000 .healthy).state = .healthy ∧ (ses 0 2000 .healthy).lastRxTime.toNat ≤ (7001 : Timestamp).toNat ∧
      (ses 0 2000 .healthy).rxTimeout.toNat < (7001 : Timestamp).toNat - (ses 0 2000 .healthy).lastRxTime.toNat) ∧
    ((ses 0 2000 .healthy).lastRxTime.toNat ≤ (7000 : Timestamp).toNat ∧
      (7000 : Timestamp).toNat - (ses 0 2000 .healthy).lastRxTime.toNat ≤ (ses 0 2000 .healthy).rxTimeout.toNat) ∧
    ((ses 0 2000 .healthy).rxTimeout = 5000 ∧ (ses 0 2000 .healthy).lastRxTime = 2000) ∧
    (sup 0 2000 .healthy).session = some (ses 0 2000 .healthy) := by decide

theorem witness_HealthStateFollowsTheTransitionTable :
    (Instr.hbCheck 7001).format = .op ∧ (sup 0 2000 .healthy).session = some (ses 0 2000 .healthy) ∧
    gives (exec (.hbCheck 7001) (sup 0 2000 .healthy)) (.report true) (ses 0 0 .unhealthy) ∧
    gives (exec (.hbCheck 7000) (sup 0 2000 .healthy)) (.report false) (ses 0 2000 .healthy) ∧
    gives (exec (.hbCheck 9000) (sup 0 0 .unhealthy)) (.report false) (ses 0 0 .unhealthy) ∧
    gives (exec (.hbRx 0x104 0) (sup 0 0 .unknown)) .done (ses 0 0 .healthy) ∧
    gives (exec (.hbRx 0x103 3000) (sup 0 2000 .healthy)) .done (ses 0 2000 .healthy) ∧
    gives (exec (.hbTick 1000) (sup 0 2000 .healthy)) (.emit 0x103 (zeros 8)) (ses 1000 2000 .healthy) ∧
    gives (exec (.reset 1000 5000) (sup 0 2000 .healthy)) .done (ses 0 0 .unknown) := by decide

theorem witness_TransmitAndReceiveHalvesDoNotInteract :
    (∀ i ∈ [Instr.hbRx 0x104 2000, .hbCheck 7001], (∃ id n, i = .hbRx id n) ∨ ∃ n, i = .hbCheck n) ∧
    performAll [.hbRx 0x104 2000, .hbCheck 7001] (sup 1000 0 .unknown) =
      .next { sup 1000 0 .unhealthy with answer := .report true } ∧
    exec (.hbTick 2000) (sup 1000 0 .unknown) = .next { sup 2000 0 .unknown with answer := .emit 0x103 (zeros 8) } ∧
    exec (.hbTick 999) (sup 1000 0 .unknown) = .refused .nonMonotonicNow :=
  ⟨by simp, rfl, rfl, rfl⟩

theorem witness_EachRegisterHasItsOwnWriters :
    (sup 0 0 .unknown).session = some (ses 0 0 .unknown) ∧ (Instr.hbTick 1000).format = .op ∧
    (∀ tx rx, Instr.hbTick 1000 ≠ .reset tx rx) ∧
    exec (.hbTick 1000) (sup 0 0 .unknown) = .next { sup 1000 0 .unknown with answer := .emit 0x103 (zeros 8) } ∧
    exec (.hbRx 0x104 5) (sup 0 0 .unknown) = .next (sup 0 5 .healthy) :=
  ⟨rfl, rfl, by simp, rfl, rfl⟩

theorem witness_EachOperationReadsItsOwnRegisters :
    exec (.hbTick 2000) (sup 1000 0 .unknown) = .next { sup 2000 0 .unknown with answer := .emit 0x103 (zeros 8) } ∧
    (ses 1000 0 .unknown).lastTxTime = (ses 1000 7 .healthy).lastTxTime ∧
    exec (.hbCheck 7001) (sup 1000 2000 .healthy) = .next { sup 1000 0 .unhealthy with answer := .report true } ∧
    (ses 1000 2000 .healthy).lastRxTime = (ses 9 2000 .healthy).lastRxTime ∧
    exec (.hbRx 0x104 5) (sup 1000 0 .unknown) = .next (sup 1000 5 .healthy) ∧
    exec (.hbRx 0x103 5) (sup 1000 0 .unknown) = .next (sup 1000 0 .unknown) := ⟨rfl, rfl, rfl, rfl, rfl, rfl⟩

theorem witness_OperationsKeepTheSessionInvariant :
    (∀ h ∈ (sup 0 2000 .healthy).session, h.Inv) ∧
    gives (exec (.hbCheck 7001) (sup 0 2000 .healthy)) (.report true) (ses 0 0 .unhealthy) := by decide

theorem witness_OneSilenceIsReportedOnce :
    exec (.hbCheck 7001) (sup 0 2000 .healthy) = .next { sup 0 0 .unhealthy with answer := .report true } ∧
    (∀ i ∈ [Instr.hbRx 0x103 7500, .hbTick 8000], notesHeartbeat i = false ∧ ∀ tx rx, i ≠ .reset tx rx) ∧
    performAll [.hbRx 0x103 7500, .hbTick 8000] { sup 0 0 .unhealthy with answer := .report true } =
      .next { sup 8000 0 .unhealthy with answer := .emit 0x103 (zeros 8) } ∧
    exec (.hbCheck 0) (sup 8000 0 .unhealthy) = .next { sup 8000 0 .unhealthy with answer := .report false } :=
  ⟨rfl, by simp [notesHeartbeat], rfl, rfl⟩

theorem witness_LinkThatNeverCameUpIsNeverReported :
    (∀ i ∈ [Instr.frame vD7, .hbTick 1000, .hbCheck 999999], notesHeartbeat i = false) ∧
    holds (performAll (.reset 1000 5000 :: [.frame vD7, .hbTick 1000, .hbCheck 999999]) (sup 0 9 .healthy))
      (fun t => t.session == some (ses 1000 0 .unknown)) := by decide

theorem witness_HealthFallsOnlyInCheckAndEmissionOnlyInTick :
    (sup 0 2000 .healthy).healthy = some true ∧
    holds (exec (.hbCheck 7001) (sup 0 2000 .healthy)) (fun t => t.healthy != some true) ∧
    holds (exec (.reset 1 1) (sup 0 2000 .healthy)) (fun t => t.healthy != some true) ∧
    holds (exec (.hbTick 1000) (sup 0 2000 .healthy)) (fun t => t.answer == .emit 0x103 (zeros 8)) := by decide

theorem witness_CommandCarriesCodeAndClampedSpeed :
    Variant.forward ≠ .stop ∧ State.reset.params = .default ∧
    holds (exec (.cmdEncode .backward 100) State.reset) (fun t => t.answer == .message 0x100 [2, 0x64, 0, 0, 0, 0, 0, 0]) ∧
    holds (exec (.cmdEncode .turnRight 101) State.reset) (fun t =>
      t.answer == .message 0x100 [4, 0x64, 0, 0, 0, 0, 0, 0]) := by decide

theorem witness_EmergencyStopMessage :
    State.reset.params = .default ∧ State.reset.transportOpen = true ∧
    holds (sendEstop true State.reset) (fun t => t.written == [vE9]) := by decide

theorem witness_ConfigurationMessage :
    State.reset.params = .default ∧ State.reset.transportOpen = true ∧
    holds (sendConfig true 80 5000 State.reset) (fun t => t.written == [vE10]) := by decide

theorem witness_MessagesAreEightBytesAndEncodable :
    (∃ v sp, Instr.cmdEncode .stop 80 = .cmdEncode v sp) ∧ Instr.estopEncode = .estopEncode ∧
    (∃ m tmo, Instr.configEncode 255 65535 = .configEncode m tmo) := ⟨⟨_, _, rfl⟩, rfl, _, _, rfl⟩

theorem witness_OtherFramesGoToTheSink :
    ((Instr.frame vD7).WellFormed ∧ vD7[19].toNat = (byteSum vD7 + 1) % 256) ∧
    ((Instr.frameMotorCmd vD6b).WellFormed ∧ vD6b[19].toNat = (byteSum vD6b + 1) % 256) ∧
    ((Instr.frameEmergencyStop vE9).WellFormed ∧ vE9[19].toNat = (byteSum vE9 + 1) % 256) ∧
    ((Instr.frameConfig vE10).WellFormed ∧ vE10[19].toNat = (byteSum vE10 + 1) % 256) ∧
    ((Instr.frameHeartbeatOut vE5).WellFormed ∧ vE5[19].toNat = (byteSum vE5 + 1) % 256) := by decide

theorem witness_HeartbeatFramesFeedTheSupervisor :
    (Instr.frameHeartbeatIn vD15).WellFormed ∧ vD15[19].toNat = (byteSum vD15 + 1) % 256 ∧
    State.reset.session = some (ses 0 0 .unknown) ∧ State.beforeReset.session = none ∧
    holds (exec (.frameHeartbeatIn vD15) State.reset) (fun t => t.session == some (ses 0 0 .healthy)) ∧
    refusedWith (exec (.frameHeartbeatIn vD15) State.beforeReset) .noSession := by decide

theorem witness_CorruptFramesAreDroppedAndLogged :
    ((Instr.frameMotorCmd vD5).WellFormed ∧ vD5[19].toNat ≠ (byteSum vD5 + 1) % 256) ∧
    ((Instr.frame (vD7.set 19 0)).WellFormed ∧ (vD7.set 19 0)[19].toNat ≠ (byteSum (vD7.set 19 0) + 1) % 256) ∧
    ((Instr.frameEmergencyStop (vE9.set 19 0)).WellFormed ∧
      (vE9.set 19 0)[19].toNat ≠ (byteSum (vE9.set 19 0) + 1) % 256) ∧
    ((Instr.frameConfig (vE10.set 19 0)).WellFormed ∧ (vE10.set 19 0)[19].toNat ≠ (byteSum (vE10.set 19 0) + 1) % 256) ∧
    ((Instr.frameHeartbeatOut (vE5.set 19 0)).WellFormed ∧ (vE5.set 19 0)[19].toNat ≠ (byteSum (vE5.set 19 0) + 1) % 256) ∧
    ((Instr.frameHeartbeatIn (vE11.set 19 0)).WellFormed ∧
      (vE11.set 19 0)[19].toNat ≠ (byteSum (vE11.set 19 0) + 1) % 256) := by decide

theorem witness_DecodeOfEncodeIsTheInstruction :
    (Instr.encode 0xFFFF (List.replicate 255 0xFF)).WellFormed ∧ (Instr.frame vD7).WellFormed ∧
    (Instr.frameHeartbeatIn vD8b).WellFormed ∧ (Instr.hbTick 0xFFFFFFFFFFFFFFFF).WellFormed :=
  ⟨by change (List.replicate 255 (0xFF : Byte)).length ≤ 255; rw [List.length_replicate], by decide⟩

theorem witness_GroupsAreClassifiedByHeaderAndIdentifier :
    vD7.HasSync ∧ vE11.HasSync ∧ ¬ vD3b.HasSync ∧ (zeros 19).length ≠ 20 ∧ (zeros 21).length ≠ 20 := by decide

theorem witness_SelectorsAreAsNumbered :
    (0x06 : Byte).toNat % 16 ∈ [6, 7, 11, 12, 13, 14, 15] ∧ (0xFF : Byte).toNat % 16 ∈ [6, 7, 11, 12, 13, 14, 15] := by
  decide

theorem witness_StepPerformsTheOldestRequest :
    decode .op [0x09] = .ok .estopEncode ∧ Instr.estopEncode.WellFormed ∧
    holds (step { State.reset with requests := [[0x09], [0x06]] }) (fun t =>
      t.answer == .message 0x101 (0xFF :: zeros 7) && t.requests == [[0x06]]) := ⟨rfl, trivial, by decide⟩

theorem witness_StepReceivesTheArrivedFrame :
    State.reset.requests = [] ∧ State.reset.phase = .receive ∧ (arrival vE11.toList State.reset).shutdown = false ∧
    (arrival vE11.toList State.reset).group = some vE11.toList ∧
    decode .f20 vE11.toList = .ok (.frameHeartbeatIn vE11) ∧ (Instr.frameHeartbeatIn vE11).WellFormed :=
  ⟨rfl, rfl, rfl, rfl, rfl, by decide⟩

theorem witness_StepWithoutAFrameReceivesNothing :
    (quietIt 9).shutdown = false ∧ (quietIt 9).group = some [] ∧ ([] : List Byte).length ≠ 20 ∧
    { quietIt 9 with group := none }.group = none ∧ ¬ vD3.HasSync ∧
    holds (step (loopAt .receive { quietIt 9 with group := some vD3.toList } State.reset))
      (fun t => t.log == [.frameDropped .invalidHeader] && t.phase == .tick) ∧
    holds (step (loopAt .receive { quietIt 9 with group := some (zeros 19) } State.reset))
      (fun t => t.log == [] && t.phase == .tick) := by decide

theorem witness_RequestsOutsideTheSpecAreRefused :
    0x7FF < (0x800 : CanId).toNat ∧ 8 < (zeros 9).length ∧ (4999 : Timestamp).toNat < (ses 5000 0 .unknown).lastTxTime.toNat ∧
    (ses 0 2000 .healthy).state = .healthy ∧ (1999 : Timestamp).toNat < (ses 0 2000 .healthy).lastRxTime.toNat ∧
    ((ses 0 2000 .unknown).state = .unknown ∧ (ses 0 2000 .unknown).lastRxTime ≠ 0) ∧
    { State.reset with requests := [[0x0B]] }.requests = [[0x0B]] ∧
    (0x0B : Byte).toNat % 16 ∈ [6, 7, 11, 12, 13, 14, 15] := by decide

theorem witness_SessionStartsWithOpenTransportAndReset :
    State.beforeReset.requests = [] ∧ State.beforeReset.phase = .start ∧ State.beforeReset.transportOpens = true ∧
    { State.beforeReset with transportOpens := false }.transportOpens = false ∧
    { State.beforeReset with phase := .exited }.phase = .exited := by decide

theorem witness_SessionEndsWithAFinalStop :
    State.reset.requests = [] ∧ State.reset.phase = .receive ∧ { quietIt 0 with shutdown := true }.shutdown = true ∧
    State.reset.transportOpen = true ∧ State.reset.params = .default ∧
    holds (step (loopAt .receive { quietIt 0 with shutdown := true, commandWriteOk := false } State.reset))
      (fun t => t.written == [] && t.log == [.writeFailed] && t.phase == .ended) := by decide

theorem witness_HeartbeatCountsAsSentBeforeItIsWritten :
    (sup 1000 0 .unhealthy).session = some (ses 1000 0 .unhealthy) ∧ (sup 1000 0 .unhealthy).transportOpen = true ∧
    (ses 1000 0 .unhealthy).lastTxTime.toNat ≤ (quietIt 1999).tickNow.toNat ∧
    (ses 1000 0 .unhealthy).txInterval.toNat ≤ (quietIt 2000).tickNow.toNat - (ses 1000 0 .unhealthy).lastTxTime.toNat ∧
    (quietIt 1999).tickNow.toNat - (ses 1000 0 .unhealthy).lastTxTime.toNat < (ses 1000 0 .unhealthy).txInterval.toNat ∧
    (quietIt 999).tickNow.toNat < (ses 1000 0 .unhealthy).lastTxTime.toNat ∧
    refusedWith (step (loopAt .tick (quietIt 999) (sup 1000 0 .unhealthy))) .nonMonotonicNow := by
  decide

theorem witness_TimeoutIsLoggedAndTheLoopGoesOn :
    holds (step (loopAt .check (quietIt 9000) (sup 0 0 .unhealthy))) (fun t =>
      t.answer == .report false && t.log == [] && t.clock == 9000 && t.phase == .command) ∧
    holds (step (loopAt .check (quietIt 999999) (sup 0 0 .unknown))) (fun t =>
      t.answer == .report false && t.log == [] && t.session == some (ses 0 0 .unknown) && t.phase == .command) ∧
    (ses 0 2000 .healthy).state = .healthy ∧ (ses 0 2000 .healthy).lastRxTime.toNat ≤ (quietIt 7000).checkNow.toNat ∧
    (ses 0 2000 .healthy).rxTimeout.toNat < (quietIt 7001).checkNow.toNat - (ses 0 2000 .healthy).lastRxTime.toNat ∧
    (quietIt 7000).checkNow.toNat - (ses 0 2000 .healthy).lastRxTime.toNat ≤ (ses 0 2000 .healthy).rxTimeout.toNat ∧
    ((ses 0 2000 .unknown).state = .unknown ∧ (ses 0 2000 .unknown).lastRxTime ≠ 0) ∧
    refusedWith (step (loopAt .check (quietIt 1999) (sup 0 2000 .healthy))) .nonMonotonicNow := by
  decide

theorem witness_AtMostOneCommandPerIteration :
    (quietIt 0).event = none ∧ (loopAt .command (quietIt 0) State.reset).phase = .command ∧
    (loopAt .command (quietIt 0) State.reset).transportOpen = true ∧
    holds (step (loopAt .command { quietIt 0 with event := some ⟨.stop, 80⟩ } State.reset)) (fun t =>
      t.written == [vE12]) ∧
    holds (step (loopAt .command { quietIt 0 with event := some ⟨.turnLeft, 50⟩ } State.reset)) (fun t =>
      t.written == [vE1]) := by decide

theorem witness_SendWritesTheEncodedFrame :
    Legal 0x7FF [1, 2, 3] ∧ State.reset.transportOpen = true ∧ ¬ Legal 0x800 [] ∧ ¬ Legal 0x100 (zeros 9) ∧
    holds (send true 0x7FF [1, 2, 3] State.reset) (fun t => t.written == [vE3]) ∧
    holds (send false 0x7FF [1, 2, 3] State.reset) (fun t => t.written == [] && t.log == [.writeFailed]) := by decide

theorem witness_TryReceiveAnswersThePairOrNone :
    (zeros 19).length ≠ 20 ∧ (zeros 21).length ≠ 20 ∧
    exec (.decode vD5) State.reset = .next { State.reset with answer := .decoded (.err .checksumMismatch) } ∧
    exec (.decode vE11) State.beforeReset =
      .next { State.beforeReset with answer := .decoded (.ok 0x104 (zeros 8)) } ∧
    (tryReceive (some vE11.toList) State.beforeReset).1 = some (0x104, zeros 8) ∧
    (tryReceive (some vD3.toList) State.reset).1 = none := ⟨by decide, by decide, rfl, rfl, rfl, rfl⟩

theorem witness_StepOneRoutesWhatTryReceiveAnswers :
    (tryReceive (some vD5.toList) { State.reset with clock := 9 }).1 = none ∧
    (tryReceive (some vE11.toList) { sup 0 0 .unhealthy with clock := 9 }).1 = some (0x104, zeros 8) ∧
    (sup 0 0 .unhealthy).session = some (ses 0 0 .unhealthy) ∧
    (tryReceive (some vD7.toList) { State.reset with clock := 9 }).1 = some (0xFF04, zeros 8) ∧ (0xFF04 : CanId) ≠ 0x104 ∧
    refusedWith (step (loopAt .receive { quietIt 9 with group := some vE11.toList } { State.reset with session := none }))
      .noSession := by decide

theorem witness_LoopTakesItsFiveStepsInOrder :
    ∀ p ∈ [Phase.receive, .tick, .check, .command, .sleep],
      (loopAt p (quietIt 1000) State.reset).requests = [] ∧ (quietIt 1000).shutdown = false ∧
      holds (step (loopAt p (quietIt 1000) State.reset)) (fun t => t.phase != p) := by decide

theorem witness_HeartbeatInTheSameIterationBeatsTheTimeout :
    (Instr.frameHeartbeatIn vE11).WellFormed ∧ vE11[19].toNat = (byteSum vE11 + 1) % 256 ∧
    (sup 7000 2000 .healthy).session = some (ses 7000 2000 .healthy) ∧
    (ses 7000 2000 .healthy).lastTxTime.toNat ≤ (quietIt 7100).tickNow.toNat ∧
    (quietIt 7100).receiveNow.toNat ≤ (quietIt 7100).checkNow.toNat ∧
    (quietIt 7100).checkNow.toNat - (quietIt 7100).receiveNow.toNat ≤ (ses 7000 2000 .healthy).rxTimeout.toNat ∧
    { quietIt 7100 with group := some vE11.toList }.group = some vE11.toList ∧
    { quietIt 7100 with group := some vE11.toList }.shutdown = false := by decide

theorem witness_StepsKeepParametersAndOnlyAppend :
    holds (step (loopAt .tick (quietIt 1000) State.reset)) (fun t => t.written == [vE5]) := by decide

/-- A state in step 3 of the loop, its clock at the sample. -/
def checking : State := { loopAt .check (quietIt 6500) (sup 6000 1000 .healthy) with clock := 6500 }

theorem checking_inv : checking.Inv := by
  refine ⟨?_, by decide, rfl, fun _ => rfl, ?_⟩
  · intro h hh
    cases hh
    exact ⟨nofun, nofun⟩
  · intro f hf
    cases hf

theorem witness_StepKeepsTheInvariant : checking.Inv ∧
    holds (step checking) (fun t => t.session == some (ses 6000 0 .unhealthy)) := ⟨checking_inv, by decide⟩

theorem witness_DutifulLoopIsNeverRefused : checking.Inv ∧ checking.Dutiful := by
  refine ⟨checking_inv, rfl, by decide, ?_⟩
  intro h hh
  cases hh
  decide

end Sys2Proof.Tests
end

/-!
SUPPORT. The parameters never change, and the three records (frames written, telemetry handed on, log) only grow: first for
each update of the state, then for each operation, each part of the loop, and one step.
-/
namespace Sys2Proof.Machine

/-- From `s` to `t` the parameters stay and each record is only added to (spec/00_scope.md R6,
spec/70_reset_and_hazards.md R193). -/
def State.RecordsGrow (s t : State) : Prop :=
  t.params = s.params ∧ s.written <+: t.written ∧ s.sink <+: t.sink ∧ s.log <+: t.log

/-- Whatever next state the outcome answers, the records have only grown since `s`. -/
def State.AnswersGrow (s : State) (o : Result) : Prop := ∀ t, o = .next t → s.RecordsGrow t

/-! ### The updates -/

section Updates

variable {s t u : State}

@[simp] theorem State.recordsGrow_refl (s : State) : s.RecordsGrow s := by simp [State.RecordsGrow]

theorem State.RecordsGrow.trans (hst : s.RecordsGrow t) (htu : t.RecordsGrow u) : s.RecordsGrow u := by
  obtain ⟨hp, hw, hs, hl⟩ := hst
  obtain ⟨hp', hw', hs', hl'⟩ := htu
  exact ⟨hp'.trans hp, hw.trans hw', hs.trans hs', hl.trans hl'⟩

@[simp] theorem State.recordsGrow_setSession (h : Option Session) : s.RecordsGrow (t.setSession h) ↔ s.RecordsGrow t := Iff.rfl
@[simp] theorem State.recordsGrow_setAnswer (a : Answer) : s.RecordsGrow (t.setAnswer a) ↔ s.RecordsGrow t := Iff.rfl
@[simp] theorem State.recordsGrow_setRequests (rs : List (List Byte)) :
    s.RecordsGrow (t.setRequests rs) ↔ s.RecordsGrow t := Iff.rfl
@[simp] theorem State.recordsGrow_setPhase (p : Phase) : s.RecordsGrow (t.setPhase p) ↔ s.RecordsGrow t := Iff.rfl
@[simp] theorem State.recordsGrow_setSchedule (its : List Iteration) :
    s.RecordsGrow (t.setSchedule its) ↔ s.RecordsGrow t := Iff.rfl
@[simp] theorem State.recordsGrow_setClock (n : Timestamp) : s.RecordsGrow (t.setClock n) ↔ s.RecordsGrow t := Iff.rfl
@[simp] theorem State.recordsGrow_setTransportOpen (b : Bool) :
    s.RecordsGrow (t.setTransportOpen b) ↔ s.RecordsGrow t := Iff.rfl

@[simp] theorem State.recordsGrow_addWritten (f : Frame) (s : State) : s.RecordsGrow (s.addWritten f) := by
  simp [State.RecordsGrow]
@[simp] theorem State.recordsGrow_addSink (id : CanId) (payload : List Byte) (s : State) :
    s.RecordsGrow (s.addSink id payload) := by
  simp [State.RecordsGrow]
@[simp] theorem State.recordsGrow_addLog (e : LogEntry) (s : State) : s.RecordsGrow (s.addLog e) := by
  simp [State.RecordsGrow]

theorem transportWrite_recordsGrow (ok : Bool) (f : Frame) (s : State) : s.RecordsGrow (transportWrite ok f s) := by
  obtain h | h := transportWrite_cases ok f s <;> simp [h]

end Updates

/-! ### Outcomes -/

section Outcomes

variable {s t : State} {o : Result}

@[simp] theorem State.answersGrow_next : s.AnswersGrow (.next t) ↔ s.RecordsGrow t := by simp [AnswersGrow]

@[simp] theorem State.answersGrow_refused (s : State) (r : Refusal) : s.AnswersGrow (.refused r) := nofun

/-- An operation may begin at a state whose records have already grown. -/
theorem State.RecordsGrow.answersGrow (h : s.RecordsGrow t) (ho : t.AnswersGrow o) : s.AnswersGrow o :=
  fun u hu => h.trans (ho u hu)

theorem State.AnswersGrow.andThen {k : State → Result} (ho : s.AnswersGrow o) (hk : ∀ u : State, u.AnswersGrow (k u)) :
    s.AnswersGrow (Machine.andThen o k) := by
  intro t ht
  obtain ⟨u, hu, hkt⟩ := andThen_eq_next.mp ht
  exact (ho u hu).trans (hk u t hkt)

/-- The common case: what follows the operation is one update of the state. -/
theorem State.AnswersGrow.andThen_next {g : State → State} (ho : s.AnswersGrow o) (hg : ∀ u : State, u.RecordsGrow (g u)) :
    s.AnswersGrow (Machine.andThen o fun u => .next (g u)) :=
  ho.andThen fun u => answersGrow_next.mpr (hg u)

end Outcomes

/-! ### The operations -/

theorem noteReceive_answersGrow (id : CanId) (now : Timestamp) (s : State) : s.AnswersGrow (noteReceive id now s) := by
  intro t h
  obtain ⟨g, -, ⟨-, rfl⟩ | ⟨-, rfl⟩⟩ := noteReceive_eq_next h <;> simp

/-- A received frame adds to the log (dropped), to nothing (heartbeat) or to the sink (any other). -/
theorem receiveFrame_answersGrow (f : Frame) (s : State) : s.AnswersGrow (receiveFrame f s) := by
  intro t h
  obtain ⟨k, -, rfl⟩ | ⟨p, g, -, -, rfl⟩ | ⟨id, p, -, -, rfl⟩ := receiveFrame_eq_next h
  · simp [State.addLog_setAnswer]
  · simp
  · simp [State.addSink_setAnswer]

theorem exec_encode_answersGrow (id : CanId) (payload : List Byte) (s : State) :
    s.AnswersGrow (exec (.encode id payload) s) := by
  cases h : encodable id payload
  · simp [exec_encode_of_not_encodable h]
  · simp [exec_encode_of_encodable h]

theorem exec_hbTick_answersGrow (now : Timestamp) (s : State) : s.AnswersGrow (exec (.hbTick now) s) := by
  intro t h
  obtain ⟨g, -, -, ⟨-, rfl⟩ | ⟨-, rfl⟩⟩ := exec_hbTick_eq_next h <;> simp

theorem exec_hbCheck_answersGrow (now : Timestamp) (s : State) : s.AnswersGrow (exec (.hbCheck now) s) := by
  intro t h
  obtain ⟨g, -, ⟨-, -, -, rfl⟩ | ⟨-, -, -, rfl⟩ | ⟨-, rfl⟩⟩ := exec_hbCheck_eq_next h <;> simp

theorem exec_answersGrow (i : Instr) (s : State) : s.AnswersGrow (exec i s) := by
  cases i with
  | reset tx rx => simp [exec_reset]
  | encode id payload => exact exec_encode_answersGrow id payload s
  | decode f => simp [exec_decode]
  | hbTick now => exact exec_hbTick_answersGrow now s
  | hbRx id now => rw [exec_hbRx]; exact noteReceive_answersGrow id now s
  | hbCheck now => exact exec_hbCheck_answersGrow now s
  | cmdEncode v sp => simp [exec_cmdEncode]
  | estopEncode => simp [exec_estopEncode]
  | configEncode m n => simp [exec_configEncode]
  | frame f => exact receiveFrame_answersGrow f s
  | frameMotorCmd f => exact receiveFrame_answersGrow f s
  | frameEmergencyStop f => exact receiveFrame_answersGrow f s
  | frameConfig f => exact receiveFrame_answersGrow f s
  | frameHeartbeatOut f => exact receiveFrame_answersGrow f s
  | frameHeartbeatIn f => exact receiveFrame_answersGrow f s

/-! ### Requests and sending -/

theorem performRequest_answersGrow (bs : List Byte) (s : State) : s.AnswersGrow (performRequest bs s) := by
  cases h : decode .op bs with
  | ok i => rw [performRequest_of_ok h]; exact exec_answersGrow i s
  | error e => simp [performRequest_of_error h]

theorem send_answersGrow (ok : Bool) (id : CanId) (payload : List Byte) (s : State) :
    s.AnswersGrow (send ok id payload s) := by
  cases h : encodable id payload
  · simp [send_of_not_encodable h]
  · rw [send_of_encodable h]
    have hs : s.RecordsGrow (s.setAnswer (.frame (buildFrame s.params id payload))) := by simp
    exact State.answersGrow_next.mpr (hs.trans (transportWrite_recordsGrow ok _ _))

theorem sendCmd_answersGrow (ok : Bool) (c : MotorCommand) (s : State) : s.AnswersGrow (sendCmd ok c s) := by
  obtain ⟨f, -, h⟩ := sendCmd_eq ok c s
  rw [h]
  have hs : s.RecordsGrow (s.setAnswer (.frame f)) := by simp
  exact State.answersGrow_next.mpr (hs.trans (transportWrite_recordsGrow ok f _))

theorem sendHeartbeat_answersGrow (ok : Bool) (s : State) : s.AnswersGrow (sendHeartbeat ok s) := by
  unfold sendHeartbeat
  split
  · exact send_answersGrow ok _ _ s
  · simp

/-! ### The parts of the loop -/

theorem routeReceived_tryReceive_answersGrow (bs : List Byte) (s : State) :
    s.AnswersGrow (routeReceived (tryReceive (some bs) s)) := by
  cases h : frameOfBytes bs with
  | ok f => simpa only [tryReceive, h, receiveFrame] using receiveFrame_answersGrow f s
  | error e => simp [tryReceive, h]

theorem receiveGroup_answersGrow (bs : List Byte) (s : State) : s.AnswersGrow (receiveGroup bs s) := by
  unfold receiveGroup
  cases decode .f20 bs with
  | ok i => exact exec_answersGrow i s
  | error e => exact routeReceived_tryReceive_answersGrow bs s

theorem receivePhase_answersGrow (it : Iteration) (s : State) : s.AnswersGrow (receivePhase it s) := by
  have hc : s.RecordsGrow (s.setClock it.receiveNow) := by simp
  unfold receivePhase
  cases it.group with
  | none => simp
  | some bs => exact hc.answersGrow (receiveGroup_answersGrow bs _)

theorem tickPhase_answersGrow (it : Iteration) (s : State) : s.AnswersGrow (tickPhase it s) := by
  have hc : s.RecordsGrow (s.setClock it.tickNow) := by simp
  exact (hc.answersGrow (exec_answersGrow _ _)).andThen (sendHeartbeat_answersGrow it.heartbeatWriteOk)

theorem checkPhase_answersGrow (it : Iteration) (s : State) : s.AnswersGrow (checkPhase it s) := by
  have hc : s.RecordsGrow (s.setClock it.checkNow) := by simp
  refine (hc.answersGrow (exec_answersGrow _ _)).andThen_next fun u => ?_
  split <;> simp

theorem commandPhase_answersGrow (it : Iteration) (s : State) : s.AnswersGrow (commandPhase it s) := by
  unfold commandPhase
  cases it.event with
  | none => simp
  | some c => exact sendCmd_answersGrow it.commandWriteOk c s

/-- `RESET` is handed the configured intervals and changes no parameter; a failure to open is logged (R147, R182). -/
theorem startPhase_answersGrow (s : State) : s.AnswersGrow (startPhase s) := by
  unfold startPhase
  split
  · have ho : s.RecordsGrow (s.setTransportOpen true) := by simp
    exact (ho.answersGrow (exec_answersGrow _ _)).andThen_next fun u => by simp
  · simp

/-- Discarding the session (R148) discards no record. -/
theorem endSession_answersGrow (it : Iteration) (s : State) : s.AnswersGrow (endSession it s) :=
  (sendCmd_answersGrow it.commandWriteOk ⟨.stop, 0⟩ s).andThen_next fun u => by simp

theorem iterationStep_answersGrow (it : Iteration) (rest : List Iteration) (s : State) :
    s.AnswersGrow (iterationStep it rest s) := by
  unfold iterationStep
  cases s.phase with
  | receive =>
    dsimp only
    split
    · exact (endSession_answersGrow it s).andThen_next fun u => by simp
    · exact (receivePhase_answersGrow it s).andThen_next fun u => by simp
  | tick => exact (tickPhase_answersGrow it s).andThen_next fun u => by simp
  | check => exact (checkPhase_answersGrow it s).andThen_next fun u => by simp
  | command => exact (commandPhase_answersGrow it s).andThen_next fun u => by simp
  | sleep => simp
  | start => simp
  | ended => simp
  | exited => simp

/-! ### One step -/

theorem loopStep_answersGrow (s : State) : s.AnswersGrow (loopStep s) := by
  by_cases hp : s.phase = .start
  · rw [loopStep_start hp]
    exact startPhase_answersGrow s
  · cases hs : s.schedule with
    | nil => simp [loopStep_idle hp hs]
    | cons it rest => rw [loopStep_iteration hp hs]; exact iterationStep_answersGrow it rest s

theorem step_answersGrow (s : State) : s.AnswersGrow (step s) := by
  cases hr : s.requests with
  | nil => rw [step_of_no_request hr]; exact loopStep_answersGrow s
  | cons bs rest =>
    have hs : s.RecordsGrow (s.setRequests rest) := by simp
    rw [step_of_request hr]
    exact hs.answersGrow (performRequest_answersGrow bs _)

/-- Settles O49: it holds, since every step is built of operations that keep the parameters and only add to the records. -/
theorem stepsKeepParametersAndOnlyAppend : Obligations.StepsKeepParametersAndOnlyAppend :=
  step_answersGrow

end Sys2Proof.Machine

/-!
SUPPORT. What an instruction can write, said once, and what follows from it for the registers (spec/10_state.md R29, R30), for
the answer (R20, R22), and for the invariant of the whole machine.
-/
namespace Sys2Proof.Machine

/-! ### What an instruction writes -/

/-- Writing back the session that is there changes nothing. -/
theorem State.setSession_of_eq {s : State} {g : Option Session} (h : s.session = g) : s.setSession g = s := by
  rw [← h]
  rfl

/-- What an operation of the block may do to the supervisor's registers: the column of writes of spec/10_state.md R29. -/
inductive Session.Written : Instr → Option Session → Option Session → Prop where
  | kept (i : Instr) (g : Option Session) : Written i g g
  | started (tx rx : Timestamp) (g : Option Session) : Written (.reset tx rx) g (some (.start tx rx))
  | ticked (now : Timestamp) (h : Session) : Written (.hbTick now) (some h) (some { h with lastTxTime := now })
  | noted (id : CanId) (now : Timestamp) (h : Session) :
      Written (.hbRx id now) (some h) (some { h with lastRxTime := now, state := .healthy })
  | silenced (now : Timestamp) (h : Session) :
      Written (.hbCheck now) (some h) (some { h with state := .unhealthy, lastRxTime := 0 })

/-- All that an instruction can do when it answers: an operation of the block writes the session and the answer, and a group
is received. -/
theorem exec_eq_next {i : Instr} {s t : State} (h : exec i s = .next t) :
    (∃ g a, Session.Written i s.session g ∧ t = (s.setSession g).setAnswer a) ∨
    (i.format = .f20 ∧ ∃ f, receiveFrame f s = .next t) := by
  have answered {a : Answer} (ha : exec i s = .next (s.setAnswer a)) :
      ∃ g a, Session.Written i s.session g ∧ t = (s.setSession g).setAnswer a :=
    ⟨s.session, a, .kept i s.session, by simpa [ha, State.setSession_of_eq rfl] using h.symm⟩
  cases i with
  | reset tx rx => exact .inl ⟨_, _, .started tx rx s.session, by simpa [exec_reset] using h.symm⟩
  | encode id payload =>
    cases he : encodable id payload
    · simp [exec_encode_of_not_encodable he] at h
    · exact .inl (answered (exec_encode_of_encodable he s))
  | decode f => exact .inl (answered (exec_decode f s))
  | hbTick now =>
    obtain ⟨g, hg, -, ⟨-, rfl⟩ | ⟨-, rfl⟩⟩ := exec_hbTick_eq_next h
    · exact .inl ⟨_, _, hg ▸ .ticked now g, rfl⟩
    · exact .inl ⟨_, _, .kept _ _, rfl⟩
  | hbRx id now =>
    obtain ⟨g, hg, ⟨-, rfl⟩ | ⟨-, rfl⟩⟩ := noteReceive_eq_next h
    · exact .inl ⟨_, _, hg ▸ .noted id now g, rfl⟩
    · exact .inl ⟨_, _, .kept _ _, rfl⟩
  | hbCheck now =>
    obtain ⟨g, hg, ⟨-, -, -, rfl⟩ | ⟨-, -, -, rfl⟩ | ⟨-, rfl⟩⟩ := exec_hbCheck_eq_next h
    · exact .inl ⟨_, _, hg ▸ .silenced now g, rfl⟩
    · exact .inl ⟨_, _, .kept _ _, rfl⟩
    · exact .inl ⟨_, _, .kept _ _, rfl⟩
  | cmdEncode v sp => exact .inl (answered (exec_cmdEncode v sp s))
  | estopEncode => exact .inl (answered (exec_estopEncode s))
  | configEncode m n => exact .inl (answered (exec_configEncode m n s))
  | frame f => exact .inr ⟨rfl, f, h⟩
  | frameMotorCmd f => exact .inr ⟨rfl, f, h⟩
  | frameEmergencyStop f => exact .inr ⟨rfl, f, h⟩
  | frameConfig f => exact .inr ⟨rfl, f, h⟩
  | frameHeartbeatOut f => exact .inr ⟨rfl, f, h⟩
  | frameHeartbeatIn f => exact .inr ⟨rfl, f, h⟩

/-! ### R30 for the session -/

/-- `RESET` zeroes `last_rx_time` with the state `Unknown`. -/
theorem Session.start_inv (tx rx : Timestamp) : (Session.start tx rx).Inv := ⟨fun _ => rfl, fun _ => rfl⟩

/-- `Healthy` demands nothing of `last_rx_time`. -/
theorem Session.noted_inv (h : Session) (now : Timestamp) :
    Session.Inv { h with lastRxTime := now, state := .healthy } := ⟨nofun, nofun⟩

/-- `HB_CHECK` zeroes `last_rx_time` as it sets `Unhealthy`. -/
theorem Session.silenced_inv (h : Session) : Session.Inv { h with state := .unhealthy, lastRxTime := 0 } :=
  ⟨fun _ => rfl, fun _ => rfl⟩

theorem Session.Written.inv {i : Instr} {g g' : Option Session} (hw : Session.Written i g g') (hi : ∀ h ∈ g, h.Inv) :
    ∀ h ∈ g', h.Inv := by
  cases hw with
  | kept => exact hi
  | started tx rx => simpa using Session.start_inv tx rx
  | ticked now h => simpa using hi
  | noted id now h => simpa using h.noted_inv now
  | silenced now h => simpa using h.silenced_inv

/-- No operation of the block discards the session. -/
theorem Session.Written.isSome {i : Instr} {g g' : Option Session} (hw : Session.Written i g g') (hg : g.isSome = true) :
    g'.isSome = true := by
  cases hw with
  | kept => exact hg
  | started | ticked | noted | silenced => rfl

theorem exec_session_inv {i : Instr} {s t : State} (hi : ∀ h ∈ s.session, h.Inv) (h : exec i s = .next t) :
    ∀ h ∈ t.session, h.Inv := by
  obtain ⟨g, a, hw, rfl⟩ | ⟨-, f, hf⟩ := exec_eq_next h
  · exact hw.inv hi
  · obtain ⟨k, -, rfl⟩ | ⟨p, g, -, -, rfl⟩ | ⟨id, p, -, -, rfl⟩ := receiveFrame_eq_next hf
    · exact hi
    · simpa using g.noted_inv s.clock
    · exact hi

/-! ### The invariant under each update -/

section Updates

variable {s : State}

@[simp] theorem State.inv_setRequests (rs : List (List Byte)) : (s.setRequests rs).Inv ↔ s.Inv := Iff.rfl
@[simp] theorem State.inv_setSchedule (its : List Iteration) : (s.setSchedule its).Inv ↔ s.Inv := Iff.rfl
@[simp] theorem State.inv_addLog (e : LogEntry) : (s.addLog e).Inv ↔ s.Inv := Iff.rfl

/-- The loop may go on to any phase in which it runs as it does now. -/
theorem State.Inv.setPhase (hs : s.Inv) {p : Phase} (hp : p.running = s.phase.running) : (s.setPhase p).Inv := by
  simpa [State.Inv, hp] using hs

theorem State.Inv.setSession (hs : s.Inv) {g : Option Session} (hg : ∀ h ∈ g, h.Inv)
    (hsome : s.session.isSome = true → g.isSome = true) : (s.setSession g).Inv := by
  obtain ⟨-, hcodes, hopen, hrun, hwritten⟩ := hs
  exact ⟨hg, hcodes, hopen, fun hr => hsome (hrun hr), hwritten⟩

theorem State.Inv.addWritten (hs : s.Inv) {f : Frame} (hf : IsEncoded f) : (s.addWritten f).Inv := by
  obtain ⟨hsession, hcodes, hopen, hrun, hwritten⟩ := hs
  refine ⟨hsession, hcodes, hopen, hrun, fun f' hf' => ?_⟩
  obtain hold | rfl : f' ∈ s.written ∨ f' = f := by simpa using hf'
  · exact hwritten f' hold
  · exact hf

end Updates

/-! ### The frames on the wire -/

/-- A frame built inside `ENCODE`'s precondition has the properties of R94. -/
theorem buildFrame_isEncoded (p : Params) {id : CanId} {payload : List Byte} (h : encodable id payload = true) :
    IsEncoded (buildFrame p id payload) := by
  obtain ⟨hid, hlen⟩ := encodable_iff.mp h
  have hdlc : (buildFrame p id payload)[9].toNat = payload.length := by
    rw [buildFrame_9, BitVec.toNat_ofNat, Nat.mod_eq_of_lt (by omega)]
  refine ⟨rfl, rfl, ?_, ?_, fun i hi hle => ?_, (cksum_buildFrame p id payload).symm⟩
  · rw [buildFrame_3, hiByte_toNat]
    omega
  · rwa [hdlc]
  · rw [buildFrame_slot p id payload hi, slot_of_le payload (hdlc ▸ hle)]

/-! ### What an outcome ensures -/

/-- Whatever next state the outcome answers has the property. -/
def Ensures (P : State → Prop) (o : Result) : Prop := ∀ t, o = .next t → P t

section Outcomes

variable {P Q : State → Prop} {o : Result}

@[simp] theorem ensures_next {t : State} : Ensures P (.next t) ↔ P t := by simp [Ensures]

@[simp] theorem ensures_refused (r : Refusal) : Ensures P (.refused r) := nofun

theorem Ensures.andThen {k : State → Result} (ho : Ensures P o) (hk : ∀ u, P u → Ensures Q (k u)) :
    Ensures Q (Machine.andThen o k) := by
  intro t ht
  obtain ⟨u, hu, hkt⟩ := andThen_eq_next.mp ht
  exact hk u (ho u hu) t hkt

end Outcomes

/-- The invariant holds and the loop stands at this phase: what every part of an iteration keeps until the loop moves on. -/
def State.InvAt (p : Phase) (s : State) : Prop := s.Inv ∧ s.phase = p

section InvAt

variable {p : Phase} {s : State}

theorem State.InvAt.inv (hs : s.InvAt p) : s.Inv := hs.1

/-- Moving on keeps the invariant while the loop neither starts nor ends. -/
theorem State.InvAt.setPhase (hs : s.InvAt p) {q : Phase} (hq : q.running = p.running) : (s.setPhase q).Inv :=
  hs.1.setPhase (hs.2 ▸ hq)

@[simp] theorem State.invAt_setAnswer (a : Answer) : (s.setAnswer a).InvAt p ↔ s.InvAt p := Iff.rfl
@[simp] theorem State.invAt_setClock (n : Timestamp) : (s.setClock n).InvAt p ↔ s.InvAt p := Iff.rfl
@[simp] theorem State.invAt_addSink (id : CanId) (payload : List Byte) :
    (s.addSink id payload).InvAt p ↔ s.InvAt p := Iff.rfl
@[simp] theorem State.invAt_addLog (e : LogEntry) : (s.addLog e).InvAt p ↔ s.InvAt p := Iff.rfl

/-! ### The operations keep the invariant and the phase -/

theorem receiveFrame_ensures_invAt (hs : s.InvAt p) (f : Frame) : Ensures (State.InvAt p) (receiveFrame f s) := by
  intro t h
  obtain ⟨k, -, rfl⟩ | ⟨q, g, -, hg, rfl⟩ | ⟨id, q, -, -, rfl⟩ := receiveFrame_eq_next h
  · simpa using hs
  · exact ⟨hs.inv.setSession (by simpa using g.noted_inv s.clock) fun _ => rfl, hs.2⟩
  · simpa using hs

theorem exec_ensures_invAt (hs : s.InvAt p) (i : Instr) : Ensures (State.InvAt p) (exec i s) := by
  intro t h
  obtain ⟨g, a, hw, rfl⟩ | ⟨-, f, hf⟩ := exec_eq_next h
  · obtain ⟨hinv, hphase⟩ := hs
    exact ⟨hinv.setSession (hw.inv hinv.1) hw.isSome, hphase⟩
  · exact receiveFrame_ensures_invAt hs f t hf

theorem transportWrite_invAt (hs : s.InvAt p) (ok : Bool) {f : Frame} (hf : IsEncoded f) :
    (transportWrite ok f s).InvAt p := by
  obtain h | h := transportWrite_cases ok f s <;> rw [h]
  · exact ⟨hs.inv.addWritten hf, hs.2⟩
  · exact hs

/-- `SEND` writes nothing but what `ENCODE` answered. -/
theorem send_ensures_invAt (hs : s.InvAt p) (ok : Bool) (id : CanId) (payload : List Byte) :
    Ensures (State.InvAt p) (send ok id payload s) := by
  cases h : encodable id payload
  · simp [send_of_not_encodable h]
  · rw [send_of_encodable h, ensures_next]
    exact transportWrite_invAt (by simpa using hs) ok (buildFrame_isEncoded s.params h)

theorem sendCmd_ensures_invAt (hs : s.InvAt p) (ok : Bool) (c : MotorCommand) :
    Ensures (State.InvAt p) (sendCmd ok c s) := by
  obtain ⟨f, rfl, h⟩ := sendCmd_eq ok c s
  rw [h, ensures_next]
  exact transportWrite_invAt (by simpa using hs) ok (buildFrame_isEncoded s.params (encodable_command _ _))

theorem sendHeartbeat_ensures_invAt (hs : s.InvAt p) (ok : Bool) : Ensures (State.InvAt p) (sendHeartbeat ok s) := by
  unfold sendHeartbeat
  split
  · exact send_ensures_invAt hs ok _ _
  · simpa using hs

/-! ### The parts of the loop keep the invariant and the phase -/

theorem receiveGroup_ensures_invAt (hs : s.InvAt p) (bs : List Byte) : Ensures (State.InvAt p) (receiveGroup bs s) := by
  unfold receiveGroup
  cases decode .f20 bs with
  | ok i => exact exec_ensures_invAt hs i
  | error e =>
    cases h : frameOfBytes bs with
    | ok f => simpa only [tryReceive, h, receiveFrame] using receiveFrame_ensures_invAt hs f
    | error e => simpa [tryReceive, h] using hs

theorem receivePhase_ensures_invAt (hs : s.InvAt p) (it : Iteration) : Ensures (State.InvAt p) (receivePhase it s) := by
  unfold receivePhase
  cases it.group with
  | none => simpa using hs
  | some bs => exact receiveGroup_ensures_invAt (by simpa using hs) bs

theorem tickPhase_ensures_invAt (hs : s.InvAt p) (it : Iteration) : Ensures (State.InvAt p) (tickPhase it s) :=
  (exec_ensures_invAt (by simpa using hs) (.hbTick it.tickNow)).andThen fun _ hu =>
    sendHeartbeat_ensures_invAt hu it.heartbeatWriteOk

theorem checkPhase_ensures_invAt (hs : s.InvAt p) (it : Iteration) : Ensures (State.InvAt p) (checkPhase it s) :=
  (exec_ensures_invAt (by simpa using hs) (.hbCheck it.checkNow)).andThen fun u hu => by
    split <;> simpa using hu

theorem commandPhase_ensures_invAt (hs : s.InvAt p) (it : Iteration) : Ensures (State.InvAt p) (commandPhase it s) := by
  unfold commandPhase
  cases it.event with
  | none => simpa using hs
  | some c => exact sendCmd_ensures_invAt hs it.commandWriteOk c

end InvAt

/-! ### The invariant over one step -/

/-- Opening the transport and the first `RESET` go together; a failure to open leaves it closed (R147). -/
theorem startPhase_ensures_inv {s : State} (hs : s.InvAt .start) : Ensures State.Inv (startPhase s) := by
  obtain ⟨hinv, hphase⟩ := hs
  unfold startPhase
  split
  · obtain ⟨-, hcodes, -, -, hwritten⟩ := hinv
    simp only [exec_reset, andThen_next, ensures_next]
    exact ⟨by simpa using Session.start_inv _ _, hcodes, rfl, fun _ => rfl, hwritten⟩
  · exact ensures_next.mpr (State.Inv.setPhase (by simpa using hinv) (by simp [hphase, Phase.running]))

/-- The transport is closed and the session discarded as the loop ends (R148). -/
theorem endSession_ensures_inv {s : State} (hs : s.InvAt .receive) (it : Iteration) :
    Ensures State.Inv (endSession it s) :=
  (sendCmd_ensures_invAt hs it.commandWriteOk ⟨.stop, 0⟩).andThen fun u hu => by
    obtain ⟨⟨-, hcodes, -, -, hwritten⟩, -⟩ := hu
    exact ensures_next.mpr ⟨nofun, hcodes, rfl, nofun, hwritten⟩

theorem iterationStep_ensures_inv {s : State} (hs : s.Inv) (it : Iteration) (rest : List Iteration) :
    Ensures State.Inv (iterationStep it rest s) := by
  have movesOn {p q : Phase} {o : Result} (ho : Ensures (State.InvAt p) o) (hq : q.running = p.running) :
      Ensures State.Inv (andThen o fun u => .next (u.setPhase q)) :=
    ho.andThen fun u hu => ensures_next.mpr (hu.setPhase hq)
  unfold iterationStep
  cases hp : s.phase with
  | receive =>
    dsimp only
    split
    · exact (endSession_ensures_inv ⟨hs, hp⟩ it).andThen fun u hu => by simpa using hu
    · exact movesOn (receivePhase_ensures_invAt ⟨hs, hp⟩ it) rfl
  | tick => exact movesOn (tickPhase_ensures_invAt ⟨hs, hp⟩ it) rfl
  | check => exact movesOn (checkPhase_ensures_invAt ⟨hs, hp⟩ it) rfl
  | command => exact movesOn (commandPhase_ensures_invAt ⟨hs, hp⟩ it) rfl
  | sleep => exact ensures_next.mpr (State.Inv.setPhase (by simpa using hs) (by simp [hp, Phase.running]))
  | start => simpa using hs
  | ended => simpa using hs
  | exited => simpa using hs

theorem loopStep_ensures_inv {s : State} (hs : s.Inv) : Ensures State.Inv (loopStep s) := by
  by_cases hp : s.phase = .start
  · rw [loopStep_start hp]
    exact startPhase_ensures_inv ⟨hs, hp⟩
  · cases hsch : s.schedule with
    | nil => simpa [loopStep_idle hp hsch] using hs
    | cons it rest => rw [loopStep_iteration hp hsch]; exact iterationStep_ensures_inv hs it rest

theorem performRequest_ensures_inv {s : State} (hs : s.Inv) (bs : List Byte) : Ensures State.Inv (performRequest bs s) := by
  cases h : decode .op bs with
  | ok i =>
    rw [performRequest_of_ok h]
    exact fun t ht => (exec_ensures_invAt ⟨hs, rfl⟩ i t ht).inv
  | error e => simp [performRequest_of_error h]

theorem step_ensures_inv {s : State} (hs : s.Inv) : Ensures State.Inv (step s) := by
  cases hr : s.requests with
  | nil => rw [step_of_no_request hr]; exact loopStep_ensures_inv hs
  | cons bs rest => rw [step_of_request hr]; exact performRequest_ensures_inv (by simpa using hs) bs

/-- Settles O51: it holds. An operation keeps the invariant and the phase, a phase moves on only to one in which the loop runs
too, and the start and the end of the session change transport, session and phase together. -/
theorem stepKeepsTheInvariant : Obligations.StepKeepsTheInvariant :=
  fun _ t hs h => step_ensures_inv hs t h

/-! ### The answer is read by no operation -/

theorem noteReceive_setAnswer (id : CanId) (now : Timestamp) (s : State) (a : Answer) :
    noteReceive id now (s.setAnswer a) = noteReceive id now s := rfl

/-- `DECODE` answers anew before anything is routed. -/
theorem tryReceiveFrame_setAnswer (f : Frame) (s : State) (a : Answer) :
    tryReceiveFrame f (s.setAnswer a) = tryReceiveFrame f s := by
  cases h : parseFrame f with
  | err k => simp [tryReceiveFrame_of_err h]
  | ok id payload => simp [tryReceiveFrame_of_ok h]

theorem receiveFrame_setAnswer (f : Frame) (s : State) (a : Answer) :
    receiveFrame f (s.setAnswer a) = receiveFrame f s := by
  simp only [receiveFrame, tryReceiveFrame_setAnswer]

/-- The answer in the state decides nothing and is replaced. -/
theorem exec_setAnswer (i : Instr) (s : State) (a : Answer) : exec i (s.setAnswer a) = exec i s := by
  cases i with
  | reset tx rx => simp only [exec_reset, State.setSession_setAnswer, State.setAnswer_setAnswer]
  | encode id payload =>
    cases h : encodable id payload
    · simp [exec_encode_of_not_encodable h]
    · simp [exec_encode_of_encodable h]
  | decode f => simp [exec_decode]
  | hbTick now => rfl
  | hbRx id now => exact noteReceive_setAnswer id now s a
  | hbCheck now => rfl
  | cmdEncode v sp => simp [exec_cmdEncode]
  | estopEncode => simp [exec_estopEncode]
  | configEncode m n => simp [exec_configEncode]
  | frame f => exact receiveFrame_setAnswer f s a
  | frameMotorCmd f => exact receiveFrame_setAnswer f s a
  | frameEmergencyStop f => exact receiveFrame_setAnswer f s a
  | frameConfig f => exact receiveFrame_setAnswer f s a
  | frameHeartbeatOut f => exact receiveFrame_setAnswer f s a
  | frameHeartbeatIn f => exact receiveFrame_setAnswer f s a

/-- An operation after one that only answered has the outcome it has without it. -/
theorem performAll_after_answer {i j : Instr} {s : State} {a : Answer} (h : exec j s = .next (s.setAnswer a)) :
    performAll [j, i] s = exec i s := by
  simp only [performAll, h, andThen_next, exec_setAnswer]
  cases exec i s <;> rfl

/-- Settles O10: it holds, since `DECODE` and `ENCODE` write nothing but the answer, which no operation reads. -/
theorem codecKeepsNothing : Obligations.CodecKeepsNothing := by
  refine ⟨fun s f i => performAll_after_answer (exec_decode f s), fun s id p i hl => ?_, fun s s' id p hp hl => ?_⟩
  · exact performAll_after_answer (exec_encode_of_encodable (encodable_iff.mpr hl) s)
  · have he := exec_encode_of_encodable (encodable_iff.mpr hl)
    refine ⟨buildFrame s.params id p, he s, ?_⟩
    rw [hp]
    exact he s'

/-! ### Writers and readers of each register -/

/-- Settles O21: it holds, by the table of what each operation may write. -/
theorem eachRegisterHasItsOwnWriters : Obligations.EachRegisterHasItsOwnWriters := by
  intro i s t hop h
  obtain ⟨g, a, hw, rfl⟩ | ⟨hf20, -⟩ := exec_eq_next h
  · refine ⟨rfl, fun r hs hreset => ?_⟩
    rw [hs] at hw
    simp only [State.setAnswer_session, State.setSession_session]
    cases hw with
    | kept => exact ⟨r, rfl, rfl, rfl, by simp, by simp, by simp⟩
    | started tx rx => exact absurd rfl (hreset tx rx)
    | ticked now => exact ⟨_, rfl, rfl, rfl, fun _ => ⟨now, rfl⟩, by simp, by simp⟩
    | noted id now =>
      exact ⟨_, rfl, rfl, rfl, by simp, fun _ => .inl ⟨id, now, rfl⟩, fun _ => .inl ⟨id, now, rfl⟩⟩
    | silenced now => exact ⟨_, rfl, rfl, rfl, by simp, fun _ => .inr ⟨now, rfl⟩, fun _ => .inr ⟨now, rfl⟩⟩
  · simp [hop] at hf20

theorem Session.emitDue_congr {h h' : Session} (htx : h.lastTxTime = h'.lastTxTime)
    (hint : h.txInterval = h'.txInterval) (now : Timestamp) : h.emitDue now = h'.emitDue now := by
  simp only [Session.emitDue, htx, hint]

theorem Session.armed_congr {h h' : Session} (hrx : h.lastRxTime = h'.lastRxTime) (hst : h.state = h'.state) :
    h.armed = h'.armed := by
  simp only [Session.armed, hrx, hst]

theorem Session.silent_congr {h h' : Session} (hrx : h.lastRxTime = h'.lastRxTime) (hto : h.rxTimeout = h'.rxTimeout)
    (now : Timestamp) : h.silent now = h'.silent now := by
  simp only [Session.silent, hrx, hto]

section Session

variable {s : State} {h : Session} (hs : s.session = some h)

include hs

theorem exec_hbTick_of_due {now : Timestamp} (hn : h.lastTxTime.toNat ≤ now.toNat) (hd : h.emitDue now = true) :
    exec (.hbTick now) s = .next ((s.setSession (some { h with lastTxTime := now })).setAnswer
      (.emit Config.heartbeatOut (zeroPayload s.params))) := by
  simp [exec, execHbTick, withSession_some hs, Nat.not_lt.mpr hn, hd]

theorem exec_hbTick_of_not_due {now : Timestamp} (hn : h.lastTxTime.toNat ≤ now.toNat) (hd : h.emitDue now = false) :
    exec (.hbTick now) s = .next (s.setAnswer .quiet) := by
  simp [exec, execHbTick, withSession_some hs, Nat.not_lt.mpr hn, hd]

theorem exec_hbCheck_of_silent {now : Timestamp} (ha : h.armed = true) (hn : h.lastRxTime.toNat ≤ now.toNat)
    (hsil : h.silent now = true) :
    exec (.hbCheck now) s =
      .next ((s.setSession (some { h with state := .unhealthy, lastRxTime := 0 })).setAnswer (.report true)) := by
  simp [exec, execHbCheck, withSession_some hs, ha, Nat.not_lt.mpr hn, hsil]

theorem exec_hbCheck_of_not_silent {now : Timestamp} (ha : h.armed = true) (hn : h.lastRxTime.toNat ≤ now.toNat)
    (hsil : h.silent now = false) : exec (.hbCheck now) s = .next (s.setAnswer (.report false)) := by
  simp [exec, execHbCheck, withSession_some hs, ha, Nat.not_lt.mpr hn, hsil]

theorem exec_hbCheck_of_not_armed (now : Timestamp) (ha : h.armed = false) :
    exec (.hbCheck now) s = .next (s.setAnswer (.report false)) := by
  simp [exec, execHbCheck, withSession_some hs, ha]

end Session

/-- R29's reads of `HB_TICK`. -/
theorem exec_hbTick_reads {s s' t : State} {h h' g : Session} {now : Timestamp} (hs : s.session = some h)
    (hs' : s'.session = some h') (hparams : s.params = s'.params) (htx : h.lastTxTime = h'.lastTxTime)
    (hint : h.txInterval = h'.txInterval) (ht : exec (.hbTick now) s = .next t) (hg : t.session = some g) :
    exec (.hbTick now) s' =
      .next ((s'.setSession (some { h' with lastTxTime := g.lastTxTime })).setAnswer t.answer) := by
  obtain ⟨h₀, hs₀, hn, hcases⟩ := exec_hbTick_eq_next ht
  obtain rfl : h = h₀ := Option.some.inj (hs.symm.trans hs₀)
  rw [htx] at hn
  rw [Session.emitDue_congr htx hint] at hcases
  obtain ⟨hd, rfl⟩ | ⟨hd, rfl⟩ := hcases
  · obtain rfl : _ = g := Option.some.inj hg
    simpa [hparams] using exec_hbTick_of_due hs' hn hd
  · obtain rfl : h = g := Option.some.inj (hs.symm.trans hg)
    simpa [htx, State.setSession_of_eq hs'] using exec_hbTick_of_not_due hs' hn hd

/-- R29's reads of `HB_CHECK`. -/
theorem exec_hbCheck_reads {s s' t : State} {h h' g : Session} {now : Timestamp} (hs : s.session = some h)
    (hs' : s'.session = some h') (hrx : h.lastRxTime = h'.lastRxTime) (hst : h.state = h'.state)
    (hto : h.rxTimeout = h'.rxTimeout) (ht : exec (.hbCheck now) s = .next t) (hg : t.session = some g) :
    exec (.hbCheck now) s' = .next
      ((s'.setSession (some { h' with lastRxTime := g.lastRxTime, state := g.state })).setAnswer t.answer) := by
  obtain ⟨h₀, hs₀, hcases⟩ := exec_hbCheck_eq_next ht
  obtain rfl : h = h₀ := Option.some.inj (hs.symm.trans hs₀)
  rw [Session.armed_congr hrx hst, Session.silent_congr hrx hto, hrx] at hcases
  have kept (hg : s.session = some g) : s'.setSession (some { h' with lastRxTime := g.lastRxTime, state := g.state }) = s' := by
    obtain rfl : h = g := Option.some.inj (hs.symm.trans hg)
    rw [hrx, hst]
    exact State.setSession_of_eq hs'
  obtain ⟨ha, hn, hsil, rfl⟩ | ⟨ha, hn, hsil, rfl⟩ | ⟨ha, rfl⟩ := hcases
  · obtain rfl : _ = g := Option.some.inj hg
    exact exec_hbCheck_of_silent hs' ha hn hsil
  · simpa [kept hg] using exec_hbCheck_of_not_silent hs' ha hn hsil
  · simpa [kept hg] using exec_hbCheck_of_not_armed hs' now ha

/-- R29's reads of `HB_RX`: none, the new values are its operands and constants. -/
theorem exec_hbRx_reads {s s' t : State} {h' : Session} {id : CanId} {now : Timestamp} (hs' : s'.session = some h')
    (ht : exec (.hbRx id now) s = .next t) :
    ∃ t', exec (.hbRx id now) s' = .next t' ∧ t'.answer = t.answer ∧
      ∀ g g', t.session = some g → t'.session = some g' →
        (id = 0x104 → g'.lastRxTime = g.lastRxTime ∧ g'.state = g.state) ∧ (id ≠ 0x104 → g' = h') := by
  obtain ⟨h₀, -, ⟨rfl, rfl⟩ | ⟨hid, rfl⟩⟩ := noteReceive_eq_next ht
  · refine ⟨_, noteReceive_heartbeat hs' now, rfl, fun g g' hg hg' => ?_⟩
    obtain rfl : _ = g := Option.some.inj hg
    obtain rfl : _ = g' := Option.some.inj hg'
    exact ⟨fun _ => ⟨rfl, rfl⟩, fun hne => absurd rfl hne⟩
  · refine ⟨_, noteReceive_other hs' hid now, rfl, fun g g' _ hg' => ⟨fun he => absurd he hid, fun _ => ?_⟩⟩
    exact Option.some.inj (hg'.symm.trans hs')

/-- Settles O22: it holds, operation by operation. -/
theorem eachOperationReadsItsOwnRegisters : Obligations.EachOperationReadsItsOwnRegisters :=
  ⟨fun _ _ _ _ _ _ _ => exec_hbTick_reads, fun _ _ _ _ _ _ _ => exec_hbCheck_reads,
    fun _ _ _ _ _ _ _ _ => exec_hbRx_reads⟩

/-! ### After reset -/

theorem State.reset_session_inv : ∀ h ∈ State.reset.session, h.Inv := by
  rintro _ ⟨⟩
  exact Session.start_inv _ _

/-- No health state has the fourth 2-bit value. -/
theorem HealthState.number_ne_three (st : HealthState) : st.number ≠ 3 := by
  cases st <;> decide

/-- Settles O23: it holds; the `Healthy` session with `last_rx_time = 0` is the one right after reset that notes a heartbeat at
time 0. -/
theorem operationsKeepTheSessionInvariant : Obligations.OperationsKeepTheSessionInvariant :=
  ⟨State.reset_session_inv, fun _ _ _ => exec_session_inv, HealthState.number_ne_three,
    _, _, noteReceive_heartbeat (s := State.reset) (g := Session.start 1000 5000) rfl 0, rfl, rfl, rfl⟩

/-- Settles O11: it holds, since the answer decides nothing and every operation replaces it. -/
theorem noOperationReadsTheLastAnswer : Obligations.NoOperationReadsTheLastAnswer := exec_setAnswer

/-- Settles O13: it holds, by the default configuration of R6. -/
theorem stateAfterResetIsAsTheSpecSays : Obligations.StateAfterResetIsAsTheSpecSays := ⟨rfl, rfl⟩

theorem State.reset_inv : State.reset.Inv :=
  ⟨State.reset_session_inv, by decide, rfl, fun _ => rfl, nofun⟩

theorem State.beforeReset_inv : State.beforeReset.Inv :=
  ⟨nofun, by decide, rfl, nofun, nofun⟩

/-- With nothing scheduled no sample is pending, and the registers are as early as the clock. -/
theorem State.reset_dutiful : State.reset.Dutiful := by
  refine ⟨rfl, List.pairwise_singleton _ _, ?_⟩
  rintro _ ⟨⟩
  exact ⟨Nat.le_refl 0, Nat.le_refl 0⟩

/-- Settles O50: it holds of the two states the machine can begin in. -/
theorem resetSatisfiesTheInvariant : Obligations.ResetSatisfiesTheInvariant :=
  ⟨State.reset_inv, State.beforeReset_inv, State.reset_dutiful⟩

end Sys2Proof.Machine

/-!
SUPPORT. The decoder reads back what the encoder writes: the operand readers (spec/30_encoding.md R70, log 3), the selector
(R71), and the rows of the frame table (R69).
-/
namespace Sys2Proof

/-! ### Numbers and operands as bytes -/

@[simp] theorem length_beBytes (n v : Nat) : (beBytes n v).length = n := by
  induction n with
  | zero => rfl
  | succ n ih => simp [beBytes, ih]

theorem beNat_beBytes (n v : Nat) : beNat (beBytes n v) = v % 256 ^ n := by
  induction n with
  | zero => simp [beBytes, beNat, Nat.mod_one]
  | succ n ih =>
    have hdigit : (BitVec.ofNat 8 (v / 256 ^ n)).toNat = v / 256 ^ n % 256 := BitVec.toNat_ofNat _ _
    rw [beBytes, beNat, hdigit, length_beBytes, ih, Nat.pow_succ, Nat.mod_mul]
    ring

theorem takeBytes_append (bs rest : List Byte) : takeBytes bs.length (bs ++ rest) = .ok (bs, rest) := by
  induction bs with
  | nil => rfl
  | cons b bs ih => simp [takeBytes, ih, Except.map]

theorem takeBytes_length (bs : List Byte) : takeBytes bs.length bs = .ok (bs, []) := by
  simpa using takeBytes_append bs []

theorem takeNat_beBytes {n v : Nat} (h : v < 256 ^ n) (rest : List Byte) :
    takeNat n (beBytes n v ++ rest) = .ok (v, rest) := by
  have ht := takeBytes_append (beBytes n v) rest
  rw [length_beBytes] at ht
  rw [takeNat, ht, Except.map, beNat_beBytes, Nat.mod_eq_of_lt h]

/-- A word that fits its `n` bytes is read back, whatever follows it. -/
@[simp] theorem takeNat_toNat {n w : Nat} (hw : w ≤ 8 * n) (x : BitVec w) (rest : List Byte) :
    takeNat n (beBytes n x.toNat ++ rest) = .ok (x.toNat, rest) := by
  refine takeNat_beBytes (x.isLt.trans_le ?_) rest
  calc 2 ^ w ≤ 2 ^ (8 * n) := Nat.pow_le_pow_right (by decide) hw
    _ = 256 ^ n := Nat.pow_mul 2 8 n

/-- The last operand of a request: nothing follows it. -/
@[simp] theorem takeNat_toNat_last {n w : Nat} (hw : w ≤ 8 * n) (x : BitVec w) :
    takeNat n (beBytes n x.toNat) = .ok (x.toNat, []) := by
  simpa using takeNat_toNat hw x []

@[simp] theorem takeNat_one_cons (b : Byte) (rest : List Byte) : takeNat 1 (b :: rest) = .ok (b.toNat, rest) := by
  simp [takeNat, takeBytes, Except.map, beNat]

@[simp] theorem variantOfNat_variantByte (v : Variant) : variantOfNat (variantByte v).toNat = .ok v := by
  cases v <;> rfl

/-! ### Requests -/

/-- The selector is the low half of the first byte (R71, log 3). -/
theorem decodeRequest_cons (b : Byte) (bs : List Byte) : decodeRequest (b :: bs) = decodeOperands (b.toNat % 16) bs := by
  rw [decodeRequest, BitVec.extractLsb'_toNat, Nat.shiftRight_zero]

theorem decodeOperands_unassigned {op : Nat} (h : op ∈ [6, 7, 11, 12, 13, 14, 15]) (bs : List Byte) :
    decodeOperands op bs = .error (.unassignedSelector op) := by
  simp only [List.mem_cons, List.not_mem_nil, or_false] at h
  obtain rfl | rfl | rfl | rfl | rfl | rfl | rfl := h <;> rfl

theorem decode_op_unassigned {b : Byte} (h : b.toNat % 16 ∈ [6, 7, 11, 12, 13, 14, 15]) (bs : List Byte) :
    decode .op (b :: bs) = .error (.unassignedSelector (b.toNat % 16)) := by
  rw [decode, decodeRequest_cons, decodeOperands_unassigned h]

/-- The next operand of a request is read from what the last one left. -/
@[simp] theorem except_ok_bind {α β : Type} (a : α) (k : α → Except DecodeError β) : (Except.ok a >>= k) = k a := rfl

@[simp] theorem except_pure {α : Type} (a : α) : (pure a : Except DecodeError α) = .ok a := rfl

theorem decode_encode_of_op {i : Instr} (hf : i.format = .op) (hw : i.WellFormed) : decode .op (encode i) = .ok i := by
  rw [decode]
  cases i with
  | reset tx rx => simp [encode, decodeRequest_cons, decodeOperands]
  | encode id payload =>
    have hlength : takeNat 1 (beBytes 1 payload.length ++ payload) = .ok (payload.length, payload) :=
      takeNat_beBytes (Nat.lt_succ_of_le hw) payload
    simp [encode, decodeRequest_cons, decodeOperands, hlength, takeBytes_length]
  | decode f =>
    have hframe : takeBytes 20 f.toList = .ok (f.toList, []) := by simpa using takeBytes_length f.toList
    simp [encode, decodeRequest_cons, decodeOperands, hframe, Machine.frameOfBytes_toList]
  | hbTick now => simp [encode, decodeRequest_cons, decodeOperands]
  | hbRx id now => simp [encode, decodeRequest_cons, decodeOperands]
  | hbCheck now => simp [encode, decodeRequest_cons, decodeOperands]
  | cmdEncode v speed => simp [encode, decodeRequest_cons, decodeOperands]
  | estopEncode => rfl
  | configEncode m timeout => simp [encode, decodeRequest_cons, decodeOperands]
  | frame | frameMotorCmd | frameEmergencyStop | frameConfig | frameHeartbeatOut | frameHeartbeatIn => cases hf

/-! ### Groups -/

/-- The bytes that a row of R69 is laid over, and those it does not look at. -/
theorem Frame.toList_eq_cons (f : Frame) :
    f.toList = f[0] :: f[1] :: f[2] :: f[3] :: f[4] :: f[5] :: f.toList.drop 6 := by
  rw [← List.take_append_drop 6 f.toList]
  simp [List.take_add_one]

theorem and_mask_full (x : Byte) : x &&& 255#8 = x := BitVec.and_allOnes

/-- A row that names an identifier fits exactly the frames with the header and that identifier. -/
theorem FrameRow.fits_named (f : Frame) (k : FrameKind) (lo : Byte) :
    FrameRow.fits ⟨k, [0xAA, 0x55, 0x00, 0x01, 0x00, lo], [0xFF, 0xFF, 0x00, 0xFF, 0x00, 0xFF]⟩ f =
      decide (f.HasSync ∧ f.HasId 0x01 lo) := by
  rw [FrameRow.fits, Frame.toList_eq_cons f]
  simp [and_mask_full, and_assoc, beq_eq_decide]

/-- The row of `FRAME` fits every frame with the header. -/
theorem FrameRow.fits_any (f : Frame) (k : FrameKind) :
    FrameRow.fits ⟨k, [0xAA, 0x55, 0x00, 0x00, 0x00, 0x00], [0xFF, 0xFF, 0x00, 0x00, 0x00, 0x00]⟩ f =
      decide f.HasSync := by
  rw [FrameRow.fits, Frame.toList_eq_cons f]
  simp [and_mask_full, beq_eq_decide]

theorem find?_cons_ite {α : Type} (p : α → Bool) (a : α) (l : List α) :
    (a :: l).find? p = if p a = true then some a else l.find? p := by
  cases h : p a <;> simp [h]

/-- The rows of R69 in the order in which they are tried. -/
theorem classify_eq (f : Frame) : classify f =
    if f.HasSync ∧ f.HasId 0x01 0x00 then some .motorCmd
    else if f.HasSync ∧ f.HasId 0x01 0x01 then some .emergencyStop
    else if f.HasSync ∧ f.HasId 0x01 0x02 then some .config
    else if f.HasSync ∧ f.HasId 0x01 0x03 then some .heartbeatOut
    else if f.HasSync ∧ f.HasId 0x01 0x04 then some .heartbeatIn
    else if f.HasSync then some .any
    else none := by
  simp only [classify, frameRows, find?_cons_ite, List.find?_nil, FrameRow.fits_named, FrameRow.fits_any,
    decide_eq_true_eq, apply_ite (Option.map FrameRow.kind), Option.map_some, Option.map_none]

/-- A frame is classified as the kind for which it is well formed. -/
theorem classify_of_wellFormed {k : FrameKind} {f : Frame} (h : (k.instr f).WellFormed) : classify f = some k := by
  rw [classify_eq]
  cases k with
  | any =>
    obtain ⟨hs, hn⟩ := h
    simp only [Frame.HasNamedId, not_or] at hn
    simp only [hn, and_false, if_false, if_pos hs]
  | motorCmd | emergencyStop | config | heartbeatOut | heartbeatIn =>
    obtain ⟨⟨h0, h1⟩, h3, h5⟩ := h
    simp [Frame.HasSync, Frame.HasId, h0, h1, h3, h5]

theorem classify_of_not_hasSync {f : Frame} (h : ¬ f.HasSync) : classify f = none := by
  simp only [classify_eq, h, false_and, if_false]

/-- A frame with the header is of some kind: a named one, or the kind of the other frames. -/
theorem exists_kind_of_hasSync {f : Frame} (h : f.HasSync) : ∃ k : FrameKind, (k.instr f).WellFormed := by
  by_cases hn : f.HasNamedId
  · obtain hid | hid | hid | hid | hid := hn
    · exact ⟨.motorCmd, h, hid⟩
    · exact ⟨.emergencyStop, h, hid⟩
    · exact ⟨.config, h, hid⟩
    · exact ⟨.heartbeatOut, h, hid⟩
    · exact ⟨.heartbeatIn, h, hid⟩
  · exact ⟨.any, h, hn⟩

theorem decode_f20_of_wellFormed {k : FrameKind} {f : Frame} (h : (k.instr f).WellFormed) :
    decode .f20 f.toList = .ok (k.instr f) := by
  simp [decode, decodeGroup, Machine.frameOfBytes_toList, classify_of_wellFormed h]

theorem decode_f20_of_not_hasSync {f : Frame} (h : ¬ f.HasSync) : decode .f20 f.toList = .error .badHeader := by
  simp [decode, decodeGroup, Machine.frameOfBytes_toList, classify_of_not_hasSync h]

theorem decode_f20_of_length_ne {bs : List Byte} (h : bs.length ≠ 20) : decode .f20 bs = .error .badLength := by
  simp [decode, decodeGroup, Machine.frameOfBytes_of_length_ne h]

theorem encode_kind (k : FrameKind) (f : Frame) : encode (k.instr f) = f.toList := by
  cases k <;> rfl

/-- An instruction of format F20 is a frame of a kind. -/
theorem Instr.exists_kind_of_f20 {i : Instr} (h : i.format = .f20) : ∃ k f, i = FrameKind.instr k f := by
  cases i with
  | frame f => exact ⟨.any, f, rfl⟩
  | frameMotorCmd f => exact ⟨.motorCmd, f, rfl⟩
  | frameEmergencyStop f => exact ⟨.emergencyStop, f, rfl⟩
  | frameConfig f => exact ⟨.config, f, rfl⟩
  | frameHeartbeatOut f => exact ⟨.heartbeatOut, f, rfl⟩
  | frameHeartbeatIn f => exact ⟨.heartbeatIn, f, rfl⟩
  | reset | encode | decode | hbTick | hbRx | hbCheck | cmdEncode | estopEncode | configEncode => cases h

/-- Settles O34: it holds. A request is read back operand by operand; a frame fits first the row of the kind it is well formed
for. -/
theorem decodeOfEncodeIsTheInstruction : Obligations.DecodeOfEncodeIsTheInstruction := by
  intro i hw
  cases hf : i.format with
  | op => exact decode_encode_of_op hf hw
  | f20 =>
    obtain ⟨k, f, rfl⟩ := Instr.exists_kind_of_f20 hf
    rw [encode_kind]
    exact decode_f20_of_wellFormed hw

/-- Settles O35: it holds. The kind is unique since it is what the frame is classified as. -/
theorem groupsAreClassifiedByHeaderAndIdentifier : Obligations.GroupsAreClassifiedByHeaderAndIdentifier := by
  refine ⟨fun f hs => ?_, fun f => decode_f20_of_not_hasSync, fun bs => decode_f20_of_length_ne⟩
  obtain ⟨k, hk⟩ := exists_kind_of_hasSync hs
  refine ⟨k, hk, decode_f20_of_wellFormed hk, fun k' hk' => ?_⟩
  exact Option.some.inj ((classify_of_wellFormed hk').symm.trans (classify_of_wellFormed hk))

/-! ### Selectors and words of the table -/

/-- Settles O36: it holds. The encoder writes each operation's number first; the decoder has no operation for the other seven. -/
theorem selectorsAreAsNumbered : Obligations.SelectorsAreAsNumbered :=
  ⟨fun _ _ _ _ _ _ _ _ _ _ => rfl, fun _ bs h => decode_op_unassigned h bs⟩

/-- Settles O37: it holds, by evaluating the decoder on the five words. -/
theorem wordsOfTheTableDecode : Obligations.WordsOfTheTableDecode :=
  ⟨by decide, by decide, by decide, by decide, by decide⟩

end Sys2Proof

/-!
SUPPORT. Requests, `SEND`, `TRY_RECEIVE` and what `DECODE` accepts (spec/30_encoding.md R73, R74, R76).
-/
namespace Sys2Proof.Machine

/-! ### Requests -/

/-- Settles O38: it holds by what a step and a request are. -/
theorem stepPerformsTheOldestRequest : Obligations.StepPerformsTheOldestRequest := by
  intro s bs rest i hr hd _
  rw [step_of_request hr, performRequest_of_ok hd]
  rfl

theorem encodable_eq_false_of_not_legal {id : CanId} {payload : List Byte} (h : ¬ Legal id payload) :
    encodable id payload = false := by
  rw [← Bool.not_eq_true]
  exact mt encodable_iff.mp h

theorem Session.armed_iff {h : Session} :
    h.armed = true ↔ h.state = .healthy ∨ (h.state = .unknown ∧ h.lastRxTime ≠ 0) := by
  simp [Session.armed, Nat.pos_iff_ne_zero, BitVec.toNat_eq]

section Session

variable {s : State} {h : Session} (hs : s.session = some h) {now : Timestamp}

include hs

theorem exec_hbTick_of_early (hn : now.toNat < h.lastTxTime.toNat) :
    exec (.hbTick now) s = .refused .nonMonotonicNow := by
  simp [exec, execHbTick, withSession_some hs, hn]

theorem exec_hbCheck_of_early (ha : h.armed = true) (hn : now.toNat < h.lastRxTime.toNat) :
    exec (.hbCheck now) s = .refused .nonMonotonicNow := by
  simp [exec, execHbCheck, withSession_some hs, ha, hn]

end Session

/-- Settles O41: it holds, each request by the test that its operation begins with. -/
theorem requestsOutsideTheSpecAreRefused : Obligations.RequestsOutsideTheSpecAreRefused := by
  refine ⟨fun s id p h => ?_, fun s h now hs hn => exec_hbTick_of_early hs hn,
    fun s h now hs ha hn => exec_hbCheck_of_early hs (Session.armed_iff.mpr ha) hn, fun s b bs rest hr hb => ?_⟩
  · have hl : ¬ Legal id p := by rintro ⟨hid, hlen⟩; omega
    exact exec_encode_of_not_encodable (encodable_eq_false_of_not_legal hl) s
  · rw [step_of_request hr, performRequest_of_error (decode_op_unassigned hb bs)]
    rfl

/-! ### `SEND` -/

/-- Settles O53: it holds: where `ENCODE` answers a frame, `SEND` writes that frame, and where it is refused, so is `SEND`. -/
theorem sendWritesTheEncodedFrame : Obligations.SendWritesTheEncodedFrame := by
  refine ⟨fun s id p ok hl ho => ?_, fun s id p ok hl => send_of_not_encodable (encodable_eq_false_of_not_legal hl) ok s⟩
  have he := encodable_iff.mpr hl
  refine ⟨buildFrame s.params id p, exec_encode_of_encodable he s, ?_⟩
  rw [send_of_encodable he]
  cases ok with
  | true => rw [transportWrite_ok (by simpa using ho)]; rfl
  | false => rw [transportWrite_failed]; rfl

/-! ### What `DECODE` answers, and `TRY_RECEIVE` -/

/-- What `DECODE` answers is the parse of its frame. -/
theorem parseFrame_of_exec_decode {f : Frame} {s : State} {r : DecodeResult}
    (h : exec (.decode f) s = .next (s.setAnswer (.decoded r))) : parseFrame f = r := by
  rw [exec_decode, Host.Outcome.next.injEq] at h
  simpa using congrArg State.answer h

/-- Settles O54: it holds, since `TRY_RECEIVE` is `DECODE` where the group is a frame, and nothing where it is none. -/
theorem tryReceiveAnswersThePairOrNone : Obligations.TryReceiveAnswersThePairOrNone := by
  refine ⟨tryReceive_none, fun s bs hl => tryReceive_of_length_ne hl s, fun s f k h => ?_, fun s f id p h => ?_⟩
  · rw [tryReceive_frame, tryReceiveFrame_of_err (parseFrame_of_exec_decode h)]
    rfl
  · rw [tryReceive_frame, tryReceiveFrame_of_ok (parseFrame_of_exec_decode h)]
    rfl

/-- The pair of an accepted frame is made of bytes 3, 5, 9 and the payload window (R95). -/
theorem parseFrame_eq_ok {f : Frame} {id : CanId} {payload : List Byte} (h : parseFrame f = .ok id payload) :
    id = joinId f[3] f[5] ∧ payload = memRead f 10 (clampDlc f[9]) := by
  cases hh : headerGood f
  · simp [parseFrame_of_bad_header hh] at h
  · cases hc : checksumGood f
    · simp [parseFrame_of_bad_checksum hh hc] at h
    · simpa [parseFrame_of_good hh hc, eq_comm] using h

theorem memRead_congr {f g : Frame} {a n : Nat} (h : ∀ i < n, f[a + i]? = g[a + i]?) : memRead f a n = memRead g a n := by
  apply List.ext_getElem?
  intro i
  by_cases hi : i < n
  · simpa [memRead, List.getElem?_take, hi] using h i hi
  · simp [memRead, hi]

/-- Settles O8: it holds, since nothing else of an accepted frame is read. -/
theorem reservedAndFillerBytesAreIgnored : Obligations.ReservedAndFillerBytesAreIgnored := by
  intro s f g idf idg pf pg hf hg h3 h5 hdlc hwindow
  obtain ⟨rfl, rfl⟩ := parseFrame_eq_ok (parseFrame_of_exec_decode hf)
  obtain ⟨rfl, rfl⟩ := parseFrame_eq_ok (parseFrame_of_exec_decode hg)
  have hclamp : clampDlc f[9] = clampDlc g[9] := hdlc
  refine ⟨by rw [h3, h5], ?_⟩
  rw [← hclamp]
  exact memRead_congr hwindow

end Sys2Proof.Machine

/-!
SUPPORT. The checksum as the sum of 19 bytes, and what one changed byte does to that sum (spec/40_frame_codec.md R90, R91).
-/
namespace Sys2Proof.Machine

/-! ### Sums of bytes -/

/-- Replacing an entry of a list changes its sum by the difference. -/
theorem sum_set_add_getElem (l : List Nat) {i : Nat} (hi : i < l.length) (a : Nat) :
    (l.set i a).sum + l[i] = l.sum + a := by
  have hself : l.sum = (l.take i).sum + l[i] + (l.drop (i + 1)).sum := by
    simpa [hi] using List.sum_set l i l[i]
  rw [hself, List.sum_set, if_pos hi]
  omega

/-- The bytes that the checksum sums are the terms of R90. -/
theorem sum_take_toList (f : Frame) : ((f.toList.take 19).map BitVec.toNat).sum = byteSum f := by
  simp [byteSum, List.take_add_one, Nat.add_assoc]

/-- A byte of the checksum's input replaced: the sum changes by the difference. -/
theorem byteSum_set (f : Frame) {i : Nat} (hi : i < 19) (v : Byte) :
    byteSum (f.set i v) + f[i].toNat = byteSum f + v.toNat := by
  have h := sum_set_add_getElem ((f.toList.take 19).map BitVec.toNat) (i := i) (by simp [hi]) v.toNat
  rw [← List.map_set, ← List.take_set, ← Vector.toList_set, sum_take_toList, sum_take_toList] at h
  simpa using h

/-- Byte 19 is not a term of the sum. -/
@[simp] theorem byteSum_set_last (f : Frame) (v : Byte) : byteSum (f.set 19 v) = byteSum f := by
  simp [byteSum]

/-- An exchange of two bytes of the checksum's input, also of a byte with itself, keeps the sum. -/
theorem byteSum_exchange (f : Frame) {i j : Nat} (hi : i < 19) (hj : j < 19) :
    byteSum ((f.set i f[j]).set j f[i]) = byteSum f := by
  have hfirst := byteSum_set f hi f[j]
  have hsecond := byteSum_set (f.set i f[j]) hj f[i]
  have hkept : (f.set i f[j])[j] = f[j] := by simp [Vector.getElem_set]
  rw [hkept] at hsecond
  omega

theorem byteSum_le (f : Frame) : byteSum f ≤ 4845 := by
  have h : ∀ n ∈ (f.toList.take 19).map BitVec.toNat, n ≤ 255 := by
    intro n hn
    obtain ⟨b, -, rfl⟩ := List.mem_map.mp hn
    exact Nat.le_of_lt_succ b.isLt
  have hsum := List.sum_le_card_nsmul _ 255 h
  rw [sum_take_toList] at hsum
  simpa using hsum

/-! ### The checksum -/

theorem cksum_eq_ofNat (f : Frame) : cksum f = BitVec.ofNat 8 (byteSum f + 1) := by
  rw [cksum, sum_take_toList]

theorem cksum_toNat (f : Frame) : (cksum f).toNat = (byteSum f + 1) % 256 := by
  rw [cksum_eq_ofNat, BitVec.toNat_ofNat]

/-- Settles O1: it holds, the sum over the list of bytes being the sum of the 19 terms. -/
theorem cksumIsTheByteSumPlusOne : Obligations.CksumIsTheByteSumPlusOne := cksum_toNat

/-- The checksum tells two frames apart exactly when it tells their sums apart modulo 256. -/
theorem cksum_eq_iff {f g : Frame} : cksum f = cksum g ↔ byteSum f % 256 = byteSum g % 256 := by
  rw [← BitVec.toNat_inj, cksum_toNat, cksum_toNat]
  omega

/-- R91 (d): the sum moves by less than 256, and not by 0. -/
theorem cksum_set_ne (f : Frame) {i : Nat} (hi : i < 19) {v : Byte} (hv : v ≠ f[i]) : cksum (f.set i v) ≠ cksum f := by
  have hsum := byteSum_set f hi v
  have hne : v.toNat ≠ f[i].toNat := mt BitVec.eq_of_toNat_eq hv
  have hnew := v.isLt
  have hold := f[i].isLt
  rw [Ne, cksum_eq_iff]
  omega

@[simp] theorem cksum_set_last (f : Frame) (v : Byte) : cksum (f.set 19 v) = cksum f := by
  rw [cksum_eq_iff, byteSum_set_last]

/-- An 8-bit adder that drops carries gives the sum over the natural numbers, modulo 256. -/
theorem foldl_add_eq_ofNat_sum (bs : List Byte) (a : Byte) :
    bs.foldl (fun x y => x + y) a = BitVec.ofNat 8 ((bs.map BitVec.toNat).sum + a.toNat) := by
  induction bs generalizing a with
  | nil => simp
  | cons b bs ih =>
    rw [List.foldl_cons, ih, List.map_cons, List.sum_cons]
    apply BitVec.eq_of_toNat_eq
    simp only [BitVec.toNat_ofNat, BitVec.toNat_add]
    omega

/-- Settles O2: it holds, each law by what happens to the sum of the bytes. -/
theorem cksumArithmeticLaws : Obligations.CksumArithmeticLaws := by
  refine ⟨fun f => ⟨?adder, Nat.succ_le_succ (byteSum_le f)⟩, fun f h => ?wrap, by decide, fun f i v hi hv => ?changed,
    fun f g h => cksum_eq_iff.mpr h, fun f i j hi hj => ?exchanged, cksum_set_last⟩
  case adder => exact (foldl_add_eq_ofNat_sum _ 1).symm
  case wrap =>
    apply BitVec.eq_of_toNat_eq
    rw [cksum_toNat, Nat.add_mod, h]
    rfl
  case changed => exact cksum_set_ne f hi hv
  case exchanged => exact cksum_eq_iff.mpr (congrArg (· % 256) (byteSum_exchange f hi hj))

end Sys2Proof.Machine

/-!
SUPPORT. The two tests of `DECODE` and the payload it reads; what `ENCODE` writes is read back, and one changed byte of a frame
that passes both tests is noticed (spec/40_frame_codec.md R92, R94, R95, R98, R99).
-/
namespace Sys2Proof.Machine

/-! ### The tests of `DECODE` -/

theorem headerGood_eq_false_iff {f : Frame} : headerGood f = false ↔ f[0] ≠ 0xAA ∨ f[1] ≠ 0x55 := by
  rw [← Bool.not_eq_true, headerGood_iff]
  exact not_and_or

/-- The second test of `DECODE`, over the natural numbers (R90). -/
theorem checksumGood_iff_byteSum {f : Frame} : checksumGood f = true ↔ f[19].toNat = (byteSum f + 1) % 256 := by
  rw [checksumGood_iff, ← BitVec.toNat_inj, cksum_toNat, eq_comm]

theorem exec_decode_of_parseFrame {f : Frame} {r : DecodeResult} (h : parseFrame f = r) (s : State) :
    exec (.decode f) s = .next (s.setAnswer (.decoded r)) := h ▸ exec_decode f s

theorem exec_decode_of_bad_header {f : Frame} (h : f[0] ≠ 0xAA ∨ f[1] ≠ 0x55) (s : State) :
    exec (.decode f) s = .next (s.setAnswer (.decoded (.err .invalidHeader))) :=
  exec_decode_of_parseFrame (parseFrame_of_bad_header (headerGood_eq_false_iff.mpr h)) s

/-! ### The payload window -/

/-- A read that ends within the frame has the length asked for. -/
theorem length_memRead (f : Frame) {a n : Nat} (h : a + n ≤ 20) : (memRead f a n).length = n := by
  simp only [memRead, List.length_take, List.length_drop, Vector.length_toList]
  omega

theorem getElem?_memRead (f : Frame) (a : Nat) {n i : Nat} (hi : i < n) : (memRead f a n)[i]? = f[a + i]? := by
  simp [memRead, hi]

/-- Settles O5: it holds, by the three cases of a parse. -/
theorem decodeTestsHeaderThenChecksum : Obligations.DecodeTestsHeaderThenChecksum := by
  refine ⟨fun s f h => exec_decode_of_bad_header h s, fun s f h0 h1 hc => ?mismatch, fun s f h0 h1 hc => ?accepted,
    fun f => rfl, fun s => exec_decode_of_parseFrame (by decide) s⟩
  case mismatch =>
    have hbad : checksumGood f = false := by
      rw [← Bool.not_eq_true, checksumGood_iff_byteSum]
      exact hc
    exact exec_decode_of_parseFrame (parseFrame_of_bad_checksum (headerGood_iff.mpr ⟨h0, h1⟩) hbad) s
  case accepted =>
    have hwindow : (memRead f 10 (clampDlc f[9])).length = clampDlc f[9] :=
      length_memRead f (by have hclamp := clampDlc_le f[9]; omega)
    refine ⟨joinId f[3] f[5], memRead f 10 (clampDlc f[9]), exec_decode_of_parseFrame
      (parseFrame_of_good (headerGood_iff.mpr ⟨h0, h1⟩) (checksumGood_iff_byteSum.mpr hc)) s, joinId_toNat _ _, hwindow,
      fun i hi => ?_⟩
    exact getElem?_memRead f 10 (hwindow ▸ hi)

/-! ### What `ENCODE` writes -/

section Encoded

variable (p : Params) {id : CanId} {payload : List Byte}

/-- The payload slots in use hold the payload (R92). -/
theorem buildFrame_payload (hlen : payload.length ≤ 8) {i : Nat} (hi : i < payload.length) :
    (buildFrame p id payload)[10 + i]? = payload[i]? := by
  rw [buildFrame_slot p id payload (by omega), slot_of_lt payload hi, List.getElem?_eq_getElem hi]

theorem buildFrame_9_toNat (hlen : payload.length ≤ 8) : (buildFrame p id payload)[9].toNat = payload.length := by
  rw [buildFrame_9, BitVec.toNat_ofNat, Nat.mod_eq_of_lt (by omega)]

/-- The window of an encoded frame, read with its own byte 9, is the payload. -/
theorem memRead_buildFrame (hlen : payload.length ≤ 8) :
    memRead (buildFrame p id payload) 10 (clampDlc (buildFrame p id payload)[9]) = payload := by
  have hdlc : clampDlc (buildFrame p id payload)[9] = payload.length := by
    rw [clampDlc, buildFrame_9_toNat p hlen, Nat.min_eq_left hlen]
  rw [hdlc]
  apply List.ext_getElem?
  intro i
  obtain hi | hi := Nat.lt_or_ge i payload.length
  · rw [getElem?_memRead _ 10 hi, buildFrame_payload p hlen hi]
  · have hend : (memRead (buildFrame p id payload) 10 payload.length).length ≤ i := by
      rwa [length_memRead _ (by omega)]
    rw [List.getElem?_eq_none hend, List.getElem?_eq_none hi]

/-- The round trip of R98, for any parameters. -/
theorem parseFrame_buildFrame (hlen : payload.length ≤ 8) : parseFrame (buildFrame p id payload) = .ok id payload := by
  obtain ⟨hheader, hchecksum⟩ := buildFrame_good p id payload
  rw [parseFrame_of_good hheader hchecksum, buildFrame_3, buildFrame_5, joinId_hiByte_loByte, memRead_buildFrame p hlen]

end Encoded

/-- What `ENCODE` answers on legal operands is the frame built from them. -/
theorem exec_encode_of_legal {id : CanId} {payload : List Byte} (h : Legal id payload) (s : State) :
    exec (.encode id payload) s = .next (s.setAnswer (.frame (buildFrame s.params id payload))) :=
  exec_encode_of_encodable (encodable_iff.mpr h) s

theorem exec_encode_of_buildFrame {id : CanId} {payload : List Byte} {s : State} {t : Frame} (h : Legal id payload)
    (ht : buildFrame s.params id payload = t) : exec (.encode id payload) s = .next (s.setAnswer (.frame t)) :=
  ht ▸ exec_encode_of_legal h s

theorem eq_buildFrame_of_exec_encode {id : CanId} {payload : List Byte} {s : State} {t : Frame} (h : Legal id payload)
    (he : exec (.encode id payload) s = .next (s.setAnswer (.frame t))) : t = buildFrame s.params id payload := by
  rw [exec_encode_of_legal h, Host.Outcome.next.injEq] at he
  simpa using (congrArg State.answer he).symm

theorem exec_encode_of_not_legal {id : CanId} {payload : List Byte} (h : ¬ Legal id payload) (s : State) :
    exec (.encode id payload) s = .refused .encodePrecondition :=
  exec_encode_of_not_encodable (encodable_eq_false_of_not_legal h) s

/-- Settles O3: it holds, byte by byte of the frame that `ENCODE` builds. -/
theorem encodeBuildsTheFrame : Obligations.EncodeBuildsTheFrame := by
  refine ⟨fun s id p hl => ?layout, fun s id p hl => exec_encode_of_not_legal hl s, fun id p => rfl, fun s hs => ?worked⟩
  case layout =>
    have hlen := hl.2
    refine ⟨buildFrame s.params id p, exec_encode_of_legal hl s, rfl, rfl, rfl, hiByte_toNat id, rfl, loByte_toNat id, rfl, rfl,
      rfl, buildFrame_9_toNat s.params hlen, fun i => buildFrame_payload s.params hlen, fun i hi hle => ?_, rfl, ?_⟩
    · rw [buildFrame_slot s.params id p hi, slot_of_le p hle]
    · rw [← cksum_toNat, cksum_buildFrame, buildFrame_19]
  case worked =>
    exact exec_encode_of_buildFrame (by decide) (by rw [hs]; decide)

/-! ### The round trip, and the opposite composition -/

/-- The round trip as two operations, in any state and under any parameters. -/
theorem exec_decode_buildFrame (p : Params) {id : CanId} {payload : List Byte} (h : Legal id payload) (s : State) :
    exec (.decode (buildFrame p id payload)) s = .next (s.setAnswer (.decoded (.ok id payload))) :=
  exec_decode_of_parseFrame (parseFrame_buildFrame p h.2) s

/-- Under the default parameters, an accepted frame whose operands `ENCODE` writes with another byte `k`. -/
theorem reencoded_differs {f : Frame} {id : CanId} {p : List Byte} {k : Nat} (hf : parseFrame f = .ok id p)
    (hl : Legal id p) (hk : (buildFrame .default id p)[k]? ≠ f[k]?) (s : State) (hs : s.params = .default) :
    exec (.decode f) s = .next (s.setAnswer (.decoded (.ok id p))) ∧
      exec (.encode id p) s = .next (s.setAnswer (.frame (buildFrame .default id p))) ∧
      (buildFrame .default id p)[k]? ≠ f[k]? :=
  ⟨exec_decode_of_parseFrame hf s, exec_encode_of_buildFrame hl (by rw [hs]), hk⟩

/-- Settles O6: it holds. An encoded frame passes both tests and its fields are the operands. The opposite composition is refused
where byte 3 puts the identifier above 0x7FF; a reserved byte 0x00, a dlc of 255 and a filler byte 0xAD are not written again. -/
theorem decodeUndoesEncode : Obligations.DecodeUndoesEncode := by
  refine ⟨fun s s' id p hl => ?roundTrip, fun s s' f id p h3 hd => ?refused, fun k hk => ?opposite⟩
  case roundTrip =>
    exact ⟨buildFrame s.params id p, exec_encode_of_legal hl s, exec_decode_buildFrame s.params hl s'⟩
  case refused =>
    obtain ⟨rfl, -⟩ := parseFrame_eq_ok (parseFrame_of_exec_decode hd)
    refine exec_encode_of_not_legal (fun hl => ?_) s'
    have hid := joinId_toNat f[3] f[5]
    have hle := hl.1
    omega
  case opposite =>
    obtain rfl | rfl | rfl : k = 2 ∨ k = 9 ∨ k = 17 := by simpa using hk
    · exact ⟨#v[0xAA, 0x55, 0x00, 0x01, 0x00, 0x04, 0x00, 0, 0, 0x00, 0, 0, 0, 0, 0, 0, 0, 0, 0, 0x05], _, 0x104, [],
        reencoded_differs (by decide) (by decide) (by decide)⟩
    · exact ⟨#v[0xAA, 0x55, 0x01, 0x01, 0x01, 0x04, 0x01, 0, 0, 0xFF, 0, 0, 0, 0, 0, 0, 0, 0, 0, 0x07], _, 0x104,
        [0, 0, 0, 0, 0, 0, 0, 0], reencoded_differs (by decide) (by decide) (by decide)⟩
    · exact ⟨#v[0xAA, 0x55, 0x01, 0x01, 0x01, 0x04, 0x01, 0, 0, 0x00, 0, 0, 0, 0, 0, 0, 0, 0xAD, 0, 0xB5], _, 0x104, [],
        reencoded_differs (by decide) (by decide) (by decide)⟩

/-! ### Distinct operands, distinct frames -/

/-- Bytes 3, 5, 9 and the payload window determine the operands of an encoded frame: a decoder reads no others (R66, R73). -/
theorem operands_eq_of_buildFrame_agree {p q : Params} {id id' : CanId} {payload payload' : List Byte}
    (hl : Legal id payload) (hl' : Legal id' payload')
    (h : ∀ k ∈ [3, 5, 9, 10, 11, 12, 13, 14, 15, 16, 17], (buildFrame p id payload)[k]? = (buildFrame q id' payload')[k]?) :
    (id, payload) = (id', payload') := by
  have h3 := h 3 (by decide)
  have h5 := h 5 (by decide)
  have h9 := h 9 (by decide)
  simp only [Vector.getElem?_eq_getElem, Nat.reduceLT, Option.some.injEq] at h3 h5 h9
  have heq := reservedAndFillerBytesAreIgnored State.reset _ _ _ _ _ _ (exec_decode_buildFrame p hl State.reset)
    (exec_decode_buildFrame q hl' State.reset) h3 h5 (by rw [h9]) fun i hi =>
      h (10 + i) (by simp only [List.mem_cons, List.not_mem_nil, or_false]; omega)
  exact Prod.ext heq.1 heq.2

/-- Settles O4: it holds. Two frames that agree on bytes 3, 5, 9 and the payload window decode to one pair. -/
theorem encodedFramesAreDistinctAndWellMade : Obligations.EncodedFramesAreDistinctAndWellMade := by
  refine ⟨fun s id p hl => ?wellMade, fun s s' id id' p p' t t' _ hl hl' hne ht ht' => ?distinct⟩
  case wellMade =>
    refine ⟨buildFrame s.params id p, exec_encode_of_legal hl s, buildFrame_isEncoded s.params (encodable_iff.mpr hl), ?_⟩
    rw [buildFrame_3, buildFrame_5, ← joinId_toNat, joinId_hiByte_loByte]
  case distinct =>
    by_contra! hagree
    rw [eq_buildFrame_of_exec_encode hl ht, eq_buildFrame_of_exec_encode hl' ht'] at hagree
    exact hne (operands_eq_of_buildFrame_agree hl hl' hagree)

/-! ### One changed byte -/

section Changed

variable {f : Frame} {i : Nat} {v : Byte}

/-- A changed byte 0 or 1 fails the first test. -/
theorem headerGood_set_of_lt (hf : headerGood f = true) (hi : i < 2) (hv : v ≠ f[i]) :
    headerGood (f.set i v) = false := by
  obtain ⟨h0, h1⟩ := headerGood_iff.mp hf
  rw [headerGood_eq_false_iff]
  obtain rfl | rfl : i = 0 ∨ i = 1 := by omega
  · exact .inl (by simpa [h0] using hv)
  · exact .inr (by simpa [h1] using hv)

/-- The first test looks at bytes 0 and 1 alone. -/
theorem headerGood_set_of_le (hi : 2 ≤ i) (hlt : i < 20) : headerGood (f.set i v) = headerGood f := by
  have h0 : i ≠ 0 := by omega
  have h1 : i ≠ 1 := by omega
  simp [headerGood, h0, h1]

/-- A changed byte fails the second test: in bytes 0 to 18 the sum moves away from byte 19, in byte 19 it stays. -/
theorem checksumGood_set (hf : checksumGood f = true) (hi : i < 20) (hv : v ≠ f[i]) :
    checksumGood (f.set i v) = false := by
  have hsum := checksumGood_iff.mp hf
  rw [← Bool.not_eq_true, checksumGood_iff]
  obtain hlt | rfl : i < 19 ∨ i = 19 := by omega
  · have hlast : (f.set i v)[19] = f[19] := Vector.getElem_set_ne hi (by decide) hlt.ne
    rw [hlast, ← hsum]
    exact cksum_set_ne f hlt hv
  · rw [cksum_set_last, hsum, Vector.getElem_set_self]
    exact hv.symm

/-- R99 for any change of one byte: the place of the byte decides which test it fails. -/
theorem parseFrame_set (hh : headerGood f = true) (hc : checksumGood f = true) (hi : i < 20) (hv : v ≠ f[i]) :
    parseFrame (f.set i v) = .err (if i < 2 then .invalidHeader else .checksumMismatch) := by
  split
  next hlt => exact parseFrame_of_bad_header (headerGood_set_of_lt hh hlt hv)
  next hge =>
    have hheader := (headerGood_set_of_le (v := v) (Nat.le_of_not_lt hge) hi).trans hh
    exact parseFrame_of_bad_checksum hheader (checksumGood_set hc hi hv)

end Changed

/-- An inverted bit changes the byte. -/
theorem xor_bit_ne (x : Byte) (b : Fin 8) : x ^^^ (1#8 <<< b.val) ≠ x := by
  have hbit : ∀ b : Fin 8, 1#8 <<< b.val ≠ 0#8 := by decide
  intro h
  exact hbit b ((BitVec.xor_right_inj x).mp (h.trans BitVec.xor_zero.symm))

/-- Settles O7: it holds, since an encoded frame passes both tests and an inverted bit changes one of its bytes. -/
theorem singleBitCorruptionIsRejected : Obligations.SingleBitCorruptionIsRejected := by
  refine ⟨fun s s' id p hl => ?_, fun s f h => exec_decode_of_bad_header h s⟩
  refine ⟨buildFrame s.params id p, exec_encode_of_legal hl s, fun i b => ?_⟩
  obtain ⟨hheader, hchecksum⟩ := buildFrame_good s.params id p
  exact exec_decode_of_parseFrame (parseFrame_set hheader hchecksum i.isLt (xor_bit_ne _ b)) s'

end Sys2Proof.Machine

/-!
SUPPORT. Progress of the loop (spec/41_heartbeat.md R111, spec/43_control_loop.md R150): in a session whose registers are not
ahead of the clock every part of an iteration answers a next state, and leaves the registers so.
-/
namespace Sys2Proof.Machine

/-! ### Answering with a property -/

/-- The outcome is a next state, and that state has the property. -/
def Answers (P : State → Prop) (o : Result) : Prop := ∃ t, o = .next t ∧ P t

section Outcomes

variable {P Q : State → Prop} {o : Result}

@[simp] theorem answers_next {t : State} : Answers P (.next t) ↔ P t := by simp [Answers]

theorem Answers.andThen {k : State → Result} (ho : Answers P o) (hk : ∀ u, P u → Answers Q (k u)) :
    Answers Q (Machine.andThen o k) := by
  obtain ⟨u, rfl, hu⟩ := ho
  exact hk u hu

end Outcomes

/-! ### Samples in order, and registers not ahead of the clock -/

/-- Clock samples that never decrease (R111). -/
def Ordered (ts : List Timestamp) : Prop := (ts.map BitVec.toNat).Pairwise (· ≤ ·)

/-- Taking the next sample: it is not below the present one, and the rest stay in order after it. -/
theorem Ordered.next {n m : Timestamp} {ts : List Timestamp} (h : Ordered (n :: m :: ts)) :
    n.toNat ≤ m.toNat ∧ Ordered (m :: ts) := by
  obtain ⟨hle, htail⟩ := List.pairwise_cons.mp h
  exact ⟨hle _ (by simp), htail⟩

theorem Ordered.sublist {ts us : List Timestamp} (h : Ordered us) (hsub : ts.Sublist us) : Ordered ts :=
  List.Pairwise.sublist (hsub.map BitVec.toNat) h

/-- Outside an iteration the samples to come are those of whole iterations. -/
@[simp] theorem pendingSamples_start (its : List Iteration) : pendingSamples .start its = its.flatMap Iteration.samples := by
  cases its <;> rfl
@[simp, inherit_doc pendingSamples_start] theorem pendingSamples_receive (its : List Iteration) :
    pendingSamples .receive its = its.flatMap Iteration.samples := by
  cases its <;> rfl
@[simp, inherit_doc pendingSamples_start] theorem pendingSamples_ended (its : List Iteration) :
    pendingSamples .ended its = its.flatMap Iteration.samples := by
  cases its <;> rfl
@[simp, inherit_doc pendingSamples_start] theorem pendingSamples_exited (its : List Iteration) :
    pendingSamples .exited its = its.flatMap Iteration.samples := by
  cases its <;> rfl

/-- Neither timestamp register holds a time after `n`. -/
def Session.NotAhead (n : Timestamp) (h : Session) : Prop :=
  h.lastTxTime.toNat ≤ n.toNat ∧ h.lastRxTime.toNat ≤ n.toNat

theorem Session.NotAhead.mono {n m : Timestamp} {h : Session} (hh : h.NotAhead n) (hle : n.toNat ≤ m.toNat) :
    h.NotAhead m :=
  ⟨hh.1.trans hle, hh.2.trans hle⟩

theorem Session.start_notAhead (tx rx n : Timestamp) : (Session.start tx rx).NotAhead n :=
  ⟨Nat.zero_le _, Nat.zero_le _⟩

theorem Session.NotAhead.ticked {n : Timestamp} {h : Session} (hh : h.NotAhead n) :
    Session.NotAhead n { h with lastTxTime := n } := ⟨Nat.le_refl _, hh.2⟩

theorem Session.NotAhead.noted {n : Timestamp} {h : Session} (hh : h.NotAhead n) :
    Session.NotAhead n { h with lastRxTime := n, state := .healthy } := ⟨hh.1, Nat.le_refl _⟩

theorem Session.NotAhead.silenced {n : Timestamp} {h : Session} (hh : h.NotAhead n) :
    Session.NotAhead n { h with state := .unhealthy, lastRxTime := 0 } := ⟨hh.1, Nat.zero_le _⟩

/-- In a session whose registers are not ahead of the clock, which stands at `n`, with no request waiting: what every part of an
iteration keeps, along with the schedule. -/
def State.OnTime (n : Timestamp) (its : List Iteration) (s : State) : Prop :=
  s.requests = [] ∧ s.schedule = its ∧ s.clock = n ∧ ∃ h, s.session = some h ∧ h.NotAhead n

/-- The host's duties, in the words above. -/
theorem State.dutiful_iff {s : State} : s.Dutiful ↔ s.requests = [] ∧ Ordered (s.clock :: pendingSamples s.phase s.schedule) ∧
    ∀ h ∈ s.session, h.NotAhead s.clock := Iff.rfl

section OnTime

variable {s : State} {n m : Timestamp} {its : List Iteration}

@[simp] theorem State.onTime_setAnswer (a : Answer) : (s.setAnswer a).OnTime n its ↔ s.OnTime n its := Iff.rfl
@[simp] theorem State.onTime_addWritten (f : Frame) : (s.addWritten f).OnTime n its ↔ s.OnTime n its := Iff.rfl
@[simp] theorem State.onTime_addSink (id : CanId) (payload : List Byte) :
    (s.addSink id payload).OnTime n its ↔ s.OnTime n its := Iff.rfl
@[simp] theorem State.onTime_addLog (e : LogEntry) : (s.addLog e).OnTime n its ↔ s.OnTime n its := Iff.rfl

@[simp] theorem transportWrite_onTime (ok : Bool) (f : Frame) : (transportWrite ok f s).OnTime n its ↔ s.OnTime n its := by
  obtain h | h := transportWrite_cases ok f s <;> simp [h]

theorem State.OnTime.setSession (hs : s.OnTime n its) {h : Session} (hh : h.NotAhead n) :
    (s.setSession (some h)).OnTime n its := by
  obtain ⟨hreq, hsch, hclock, -⟩ := hs
  exact ⟨hreq, hsch, hclock, h, rfl, hh⟩

/-- The clock moves on, the registers stay. -/
theorem State.OnTime.setClock (hs : s.OnTime n its) (hle : n.toNat ≤ m.toNat) : (s.setClock m).OnTime m its := by
  obtain ⟨hreq, hsch, -, h, hh, hna⟩ := hs
  exact ⟨hreq, hsch, rfl, h, hh, hna.mono hle⟩

/-- The duties are kept in any phase whose samples to come are in order. -/
theorem State.OnTime.dutiful (hs : s.OnTime n its) {p : Phase} (hp : Ordered (n :: pendingSamples p its)) :
    (s.setPhase p).Dutiful := by
  obtain ⟨hreq, rfl, rfl, h, hh, hna⟩ := hs
  refine ⟨hreq, hp, fun g hg => ?_⟩
  obtain rfl : h = g := Option.some.inj (hh.symm.trans hg)
  exact hna

/-! ### The parts of an iteration are not refused -/

/-- Receiving a frame: a heartbeat is noted at the clock's time. -/
theorem receiveFrame_answers_onTime (hs : s.OnTime n its) (f : Frame) :
    Answers (State.OnTime n its) (receiveFrame f s) := by
  have ⟨_, _, hclock, h, hh, hna⟩ := hs
  cases hp : parseFrame f with
  | err k => simpa [receiveFrame_of_err hp] using hs
  | ok id payload =>
    by_cases hid : id = Config.heartbeatIn
    · rw [receiveFrame_of_heartbeat hp hid, noteReceive_heartbeat hh, hclock]
      simpa using hs.setSession hna.noted
    · simpa [receiveFrame_of_other hp hid] using hs

/-- A group of 20 bytes is received as a frame, whether it is of a kind or not. -/
theorem receiveGroup_of_frame {bs : List Byte} {f : Frame} (h : frameOfBytes bs = .ok f) (s : State) :
    receiveGroup bs s = receiveFrame f s := by
  cases hc : classify f with
  | some k => simp [receiveGroup, decode, decodeGroup, h, hc, exec_frame_kind]
  | none => simp [receiveGroup, decode, decodeGroup, h, hc, tryReceive, receiveFrame]

/-- Any other group is no frame. -/
theorem receiveGroup_of_no_frame {bs : List Byte} {e : DecodeError} (h : frameOfBytes bs = .error e) (s : State) :
    receiveGroup bs s = .next s := by
  simp [receiveGroup, decode, decodeGroup, h, tryReceive]

theorem receivePhase_answers_onTime {it : Iteration} (hs : (s.setClock it.receiveNow).OnTime n its) :
    Answers (State.OnTime n its) (receivePhase it s) := by
  unfold receivePhase
  cases it.group with
  | none => simpa using hs
  | some bs =>
    cases hf : frameOfBytes bs with
    | ok f => simpa [receiveGroup_of_frame hf] using receiveFrame_answers_onTime hs f
    | error e => simpa [receiveGroup_of_no_frame hf] using hs

/-- `HB_TICK` at the clock's time is not refused, and the heartbeat it asks for is encodable. -/
theorem tickPhase_answers_onTime {it : Iteration} (hs : (s.setClock it.tickNow).OnTime it.tickNow its) :
    Answers (State.OnTime it.tickNow its) (tickPhase it s) := by
  have ⟨_, _, _, h, hh, hna⟩ := hs
  have ⟨htx, _⟩ := hna
  unfold tickPhase
  cases hd : h.emitDue it.tickNow
  · rw [exec_hbTick_of_not_due hh htx hd, andThen_next, sendHeartbeat_quiet rfl]
    simpa using hs
  · rw [exec_hbTick_of_due hh htx hd, andThen_next, sendHeartbeat_emit rfl]
    simpa using hs.setSession hna.ticked

/-- `HB_CHECK` at the clock's time is not refused. -/
theorem exec_hbCheck_answers_onTime (hs : s.OnTime n its) : Answers (State.OnTime n its) (exec (.hbCheck n) s) := by
  have ⟨_, _, _, h, hh, hna⟩ := hs
  have ⟨_, hrx⟩ := hna
  cases ha : h.armed
  · simpa [exec_hbCheck_of_not_armed hh n ha] using hs
  · cases hsil : h.silent n
    · simpa [exec_hbCheck_of_not_silent hh ha hrx hsil] using hs
    · simpa [exec_hbCheck_of_silent hh ha hrx hsil] using hs.setSession hna.silenced

theorem checkPhase_answers_onTime {it : Iteration} (hs : (s.setClock it.checkNow).OnTime it.checkNow its) :
    Answers (State.OnTime it.checkNow its) (checkPhase it s) :=
  (exec_hbCheck_answers_onTime hs).andThen fun u hu => by
    split <;> simpa using hu

theorem sendCmd_answers_onTime (hs : s.OnTime n its) (ok : Bool) (c : MotorCommand) :
    Answers (State.OnTime n its) (sendCmd ok c s) := by
  obtain ⟨f, -, h⟩ := sendCmd_eq ok c s
  simpa [h] using hs

theorem commandPhase_answers_onTime (hs : s.OnTime n its) (it : Iteration) :
    Answers (State.OnTime n its) (commandPhase it s) := by
  unfold commandPhase
  cases it.event with
  | none => simpa using hs
  | some c => exact sendCmd_answers_onTime hs it.commandWriteOk c

/-- The session ends without a refusal and takes its registers with it; the clock stays (R148). -/
theorem endSession_answers (hs : s.OnTime n its) (it : Iteration) :
    ∃ t, endSession it s = .next t ∧ t.requests = [] ∧ t.clock = n ∧ t.session = none ∧ t.phase = .ended := by
  obtain ⟨u, hu, hreq, -, hclock, -⟩ := sendCmd_answers_onTime hs it.commandWriteOk ⟨.stop, 0⟩
  exact ⟨_, by rw [endSession, sendStop, hu, andThen_next], by simp [hreq, hclock]⟩

/-- The samples still to come are then those of the iterations after this one. -/
theorem endSession_answers_dutiful {rest : List Iteration} (hs : s.OnTime n its) (it : Iteration)
    (hrest : Ordered (n :: rest.flatMap Iteration.samples)) :
    Answers State.Dutiful (andThen (endSession it s) fun u => .next (u.setSchedule rest)) := by
  obtain ⟨t, ht, hreq, rfl, hsession, hphase⟩ := endSession_answers hs it
  rw [ht, andThen_next, answers_next, State.dutiful_iff]
  exact ⟨hreq, by simpa [hphase] using hrest, by simp [hsession]⟩

end OnTime

/-! ### One step -/

theorem State.Dutiful.onTime {s : State} (hd : s.Dutiful) (hs : s.Inv) (hrun : s.phase.running = true) :
    s.OnTime s.clock s.schedule := by
  obtain ⟨hreq, -, hregs⟩ := hd
  obtain ⟨-, -, -, hsession, -⟩ := hs
  obtain ⟨h, hh⟩ := Option.isSome_iff_exists.mp (hsession hrun)
  exact ⟨hreq, rfl, rfl, h, hh, hregs h hh⟩

/-- A session starts with both registers zero; without one nothing is ahead of the clock. -/
theorem startPhase_answers_dutiful {s : State} (hd : s.Dutiful) (hp : s.phase = .start) :
    Answers State.Dutiful (startPhase s) := by
  obtain ⟨hreq, hord, hregs⟩ := State.dutiful_iff.mp hd
  rw [hp, pendingSamples_start] at hord
  unfold startPhase
  split
  · rw [exec_reset, andThen_next, answers_next]
    exact State.dutiful_iff.mpr ⟨hreq, by simpa using hord, by simpa using Session.start_notAhead _ _ _⟩
  · exact answers_next.mpr (State.dutiful_iff.mpr ⟨hreq, by simpa using hord, hregs⟩)

theorem iterationStep_answers_dutiful {s : State} {it : Iteration} {rest : List Iteration} (hd : s.Dutiful) (hs : s.Inv)
    (hp : s.phase ≠ .start) (hsch : s.schedule = it :: rest) : Answers State.Dutiful (iterationStep it rest s) := by
  have ⟨hreq, hord, hregs⟩ := State.dutiful_iff.mp hd
  rw [hsch] at hord
  have onTime (hrun : s.phase.running = true) : s.OnTime s.clock (it :: rest) := hsch ▸ hd.onTime hs hrun
  have movesOn {n : Timestamp} {p : Phase} {o : Result} (ho : Answers (State.OnTime n (it :: rest)) o)
      (hn : Ordered (n :: pendingSamples p (it :: rest))) : Answers State.Dutiful (andThen o fun u => .next (u.setPhase p)) :=
    ho.andThen fun u hu => answers_next.mpr (hu.dutiful hn)
  unfold iterationStep
  cases hphase : s.phase <;> rw [hphase] at hord onTime
  case receive =>
    dsimp only
    split
    · refine endSession_answers_dutiful (onTime rfl) it (hord.sublist ?_)
      exact (List.sublist_append_right it.samples _).cons_cons s.clock
    · obtain ⟨hle, hord⟩ := hord.next
      exact movesOn (receivePhase_answers_onTime ((onTime rfl).setClock hle)) hord
  case tick =>
    obtain ⟨hle, hord⟩ := hord.next
    exact movesOn (tickPhase_answers_onTime ((onTime rfl).setClock hle)) hord
  case check =>
    obtain ⟨hle, hord⟩ := hord.next
    exact movesOn (checkPhase_answers_onTime ((onTime rfl).setClock hle)) hord
  case command => exact movesOn (commandPhase_answers_onTime (onTime rfl) it) hord
  case sleep =>
    exact answers_next.mpr (State.dutiful_iff.mpr ⟨hreq, (pendingSamples_receive rest).symm ▸ hord, hregs⟩)
  case start => exact absurd hphase hp
  case ended => exact answers_next.mpr hd
  case exited => exact answers_next.mpr hd

theorem loopStep_answers_dutiful {s : State} (hd : s.Dutiful) (hs : s.Inv) : Answers State.Dutiful (loopStep s) := by
  by_cases hp : s.phase = .start
  · rw [loopStep_start hp]
    exact startPhase_answers_dutiful hd hp
  · cases hsch : s.schedule with
    | nil => simpa [loopStep_idle hp hsch] using hd
    | cons it rest => rw [loopStep_iteration hp hsch]; exact iterationStep_answers_dutiful hd hs hp hsch

/-- Settles O52: it holds. Whenever an operation of the loop subtracts a register from a clock sample, the sample is not below
it; and where the loop runs there is a session. That the invariant is kept is O51. -/
theorem dutifulLoopIsNeverRefused : Obligations.DutifulLoopIsNeverRefused := by
  intro s hs hd
  obtain ⟨t, ht, hdt⟩ := loopStep_answers_dutiful hd hs
  rw [← step_of_no_request hd.1] at ht
  exact ⟨t, ht, step_ensures_inv hs t ht, hdt⟩

end Sys2Proof.Machine

/-!
SUPPORT. The two halves of the supervisor (spec/41_heartbeat.md R112 to R121): what each operation does in a session, and what a
list of operations leaves as it is.
-/
namespace Sys2Proof.Machine

/-! ### Lists of operations -/

/-- What every operation of a list keeps, the list keeps. -/
theorem performAll_ensures {P : State → Prop} {ops : List Instr} {s : State}
    (hops : ∀ i ∈ ops, ∀ u, P u → Ensures P (exec i u)) (hs : P s) : Ensures P (performAll ops s) := by
  induction ops generalizing s with
  | nil => exact ensures_next.mpr hs
  | cons i ops ih =>
    have hi : Ensures P (exec i s) := hops i (by simp) s hs
    exact hi.andThen fun u hu => ih (fun j hj => hops j (by simp [hj])) hu

/-! ### What changes the session -/

/-- A received frame notes a heartbeat, at the clock's time, or leaves the session. -/
theorem receiveFrame_session {f : Frame} {s t : State} (h : receiveFrame f s = .next t) :
    (notesHeartbeat.isHeartbeat f = true ∧
      ∃ g, s.session = some g ∧ t.session = some { g with lastRxTime := s.clock, state := .healthy }) ∨
    t.session = s.session := by
  obtain ⟨k, -, rfl⟩ | ⟨p, g, hp, hg, rfl⟩ | ⟨id, p, -, -, rfl⟩ := receiveFrame_eq_next h
  · exact .inr rfl
  · exact .inl ⟨by simp [notesHeartbeat.isHeartbeat, hp], g, hg, rfl⟩
  · exact .inr rfl

/-- What an instruction may do to the session and the condition under which it does: `Session.Written` with its guards, and with
the received frames. -/
inductive Session.Changed : Instr → Option Session → Option Session → Prop where
  | kept (i : Instr) (g : Option Session) : Changed i g g
  | started (tx rx : Timestamp) (g : Option Session) : Changed (.reset tx rx) g (some (.start tx rx))
  | ticked {now : Timestamp} {h : Session} (hn : h.lastTxTime.toNat ≤ now.toNat) (hd : h.emitDue now = true) :
      Changed (.hbTick now) (some h) (some { h with lastTxTime := now })
  | noted {i : Instr} (hi : notesHeartbeat i = true) (now : Timestamp) (h : Session) :
      Changed i (some h) (some { h with lastRxTime := now, state := .healthy })
  | silenced {now : Timestamp} {h : Session} (ha : h.armed = true) (hsil : h.silent now = true) :
      Changed (.hbCheck now) (some h) (some { h with state := .unhealthy, lastRxTime := 0 })

/-- All that an instruction can do to the session when it answers. -/
theorem exec_session_changed {i : Instr} {s t : State} (h : exec i s = .next t) :
    Session.Changed i s.session t.session := by
  cases hf : i.format with
  | f20 =>
    obtain ⟨k, f, rfl⟩ := Instr.exists_kind_of_f20 hf
    rw [exec_frame_kind] at h
    obtain ⟨hb, g, hg, ht⟩ | ht := receiveFrame_session h
    · rw [hg, ht]
      exact .noted (by cases k <;> exact hb) s.clock g
    · exact ht ▸ .kept _ _
  | op =>
    cases i with
    | hbTick now =>
      obtain ⟨g, hg, hn, ⟨hd, rfl⟩ | ⟨-, rfl⟩⟩ := exec_hbTick_eq_next h
      · exact hg ▸ .ticked hn hd
      · exact .kept _ _
    | hbRx id now =>
      obtain ⟨g, hg, ⟨rfl, rfl⟩ | ⟨-, rfl⟩⟩ := noteReceive_eq_next h
      · exact hg ▸ .noted rfl now g
      · exact .kept _ _
    | hbCheck now =>
      obtain ⟨g, hg, ⟨ha, -, hsil, rfl⟩ | ⟨-, -, -, rfl⟩ | ⟨-, rfl⟩⟩ := exec_hbCheck_eq_next h
      · exact hg ▸ .silenced ha hsil
      · exact .kept _ _
      · exact .kept _ _
    | reset tx rx =>
      cases (exec_reset tx rx s).symm.trans h
      exact .started tx rx _
    | encode | decode | cmdEncode | estopEncode | configEncode =>
      obtain ⟨g, a, ⟨⟩, rfl⟩ | ⟨⟨⟩, -⟩ := exec_eq_next h
      exact .kept _ _
    | frame | frameMotorCmd | frameEmergencyStop | frameConfig | frameHeartbeatOut | frameHeartbeatIn => cases hf

/-- The same, from a session that is known. -/
theorem exec_changed_of_session {i : Instr} {s t : State} {g : Option Session} (hs : s.session = g) (h : exec i s = .next t) :
    ∃ g', t.session = g' ∧ Session.Changed i g g' :=
  ⟨t.session, rfl, hs ▸ exec_session_changed h⟩

/-! ### The transmit half -/

theorem Session.emitDue_iff {h : Session} {now : Timestamp} :
    h.emitDue now = true ↔ h.txInterval.toNat ≤ now.toNat - h.lastTxTime.toNat := by
  simp [Session.emitDue]

theorem Session.emitDue_eq_false_iff {h : Session} {now : Timestamp} :
    h.emitDue now = false ↔ now.toNat - h.lastTxTime.toNat < h.txInterval.toNat := by
  simp [Session.emitDue]

/-- The worked example of R112: the first tick after the default reset at 1000. -/
theorem exec_hbTick_reset : exec (.hbTick 1000) State.reset =
    .next ((State.reset.setSession (some { Session.start 1000 5000 with lastTxTime := 1000 })).setAnswer
      (.emit 0x103 (List.replicate 8 0x00))) :=
  exec_hbTick_of_due (h := Session.start 1000 5000) rfl (by decide) (by decide)

/-- Settles O15: it holds, by the three outcomes of `HB_TICK` in a session. -/
theorem tickEmitsWhenTheIntervalHasPassed : Obligations.TickEmitsWhenTheIntervalHasPassed := by
  refine ⟨fun s h now hs hn hd => exec_hbTick_of_due hs hn (Session.emitDue_iff.mpr hd),
    fun s h now hs hn hd => exec_hbTick_of_not_due hs hn (Session.emitDue_eq_false_iff.mpr hd),
    fun s h now hs hn => exec_hbTick_of_early hs hn, fun now => rfl, fun s hp => ⟨?_, ?_⟩, ?_⟩
  · exact exec_encode_of_buildFrame (by decide) (by rw [hp]; decide)
  · exact exec_encode_of_buildFrame (by decide) (by rw [hp]; decide)
  · exact ⟨_, _, exec_hbTick_reset, rfl, rfl, rfl⟩

theorem exec_hbTick_of_no_session {s : State} (now : Timestamp) (hs : s.session = none) :
    exec (.hbTick now) s = .refused .noSession := withSession_none hs

/-- `HB_TICK` is refused for these two reasons alone. -/
theorem exec_hbTick_eq_refused {now : Timestamp} {s : State} {r : Refusal} (h : exec (.hbTick now) s = .refused r) :
    (s.session = none ∧ r = .noSession) ∨
    ∃ g, s.session = some g ∧ now.toNat < g.lastTxTime.toNat ∧ r = .nonMonotonicNow := by
  cases hs : s.session with
  | none =>
    rw [exec_hbTick_of_no_session now hs] at h
    exact .inl ⟨rfl, by simpa using h.symm⟩
  | some g =>
    by_cases hn : now.toNat < g.lastTxTime.toNat
    · rw [exec_hbTick_of_early hs hn] at h
      exact .inr ⟨g, rfl, hn, by simpa using h.symm⟩
    · cases hd : g.emitDue now
      · simp [exec_hbTick_of_not_due hs (Nat.le_of_not_lt hn) hd] at h
      · simp [exec_hbTick_of_due hs (Nat.le_of_not_lt hn) hd] at h

/-- An emitting tick: the interval has passed, and the register holds its `now`. -/
theorem exec_hbTick_eq_emit {now : Timestamp} {s t : State} {id : CanId} {p : List Byte}
    (h : exec (.hbTick now) s = .next t) (ha : t.answer = .emit id p) :
    ∃ g, s.session = some g ∧ g.lastTxTime.toNat + g.txInterval.toNat ≤ now.toNat ∧
      t.session = some { g with lastTxTime := now } := by
  obtain ⟨g, hg, hn, ⟨hd, rfl⟩ | ⟨-, rfl⟩⟩ := exec_hbTick_eq_next h
  · have hdue := Session.emitDue_iff.mp hd
    exact ⟨g, hg, by omega, rfl⟩
  · cases ha

/-- A session with this interval whose last emission was not before `n`. -/
def State.SentSince (n : Timestamp) (txInterval : Timestamp) (s : State) : Prop :=
  ∃ h, s.session = some h ∧ h.txInterval = txInterval ∧ n.toNat ≤ h.lastTxTime.toNat

/-- R113: `last_tx_time` never goes back within a session. -/
theorem exec_ensures_sentSince {i : Instr} (hi : ∀ tx rx, i ≠ .reset tx rx) {n d : Timestamp} {s : State}
    (hs : s.SentSince n d) : Ensures (State.SentSince n d) (exec i s) := by
  intro t ht
  obtain ⟨h, hh, hint, hle⟩ := hs
  obtain ⟨g, hg, hc⟩ := exec_changed_of_session hh ht
  cases hc with
  | kept => exact ⟨h, hg, hint, hle⟩
  | started tx rx => exact absurd rfl (hi tx rx)
  | ticked hn => exact ⟨_, hg, hint, hle.trans hn⟩
  | noted => exact ⟨_, hg, hint, hle⟩
  | silenced => exact ⟨_, hg, hint, hle⟩

/-- Settles O16: it holds. After the first emission `last_tx_time` is not before it, and the second one is `TX_INTERVAL` after
whatever `last_tx_time` then holds. -/
theorem emissionsAreNeverCloserThanTheInterval : Obligations.EmissionsAreNeverCloserThanTheInterval := by
  intro s t u v h ops now now' id id' p p' hs ht hta hops hu hv hva
  obtain ⟨g, hg, -, hgt⟩ := exec_hbTick_eq_emit ht hta
  obtain rfl : h = g := Option.some.inj (hs.symm.trans hg)
  have hsent : t.SentSince now h.txInterval := ⟨_, hgt, rfl, Nat.le_refl _⟩
  obtain ⟨g', hg', hint, hle⟩ := performAll_ensures (fun i hi _ => exec_ensures_sentSince (hops i hi)) hsent u hu
  obtain ⟨g'', hg'', hdue, -⟩ := exec_hbTick_eq_emit hv hva
  obtain rfl : g' = g'' := Option.some.inj (hg'.symm.trans hg'')
  rw [← hint]
  omega

/-! ### The receive half -/

/-- Settles O17: it holds, since `HB_RX` compares all 16 bits of the identifier and does nothing else. -/
theorem receiveNotesOnlyTheHeartbeatIdentifier : Obligations.ReceiveNotesOnlyTheHeartbeatIdentifier :=
  ⟨fun _ _ now hs => noteReceive_heartbeat hs now, fun _ _ _ now hs hid => noteReceive_other hs hid now, fun _ _ => rfl,
    _, _, noteReceive_heartbeat (s := State.reset) (g := Session.start 1000 5000) rfl 2000, rfl, rfl, rfl, rfl⟩

theorem Session.armed_eq_false_iff {h : Session} :
    h.armed = false ↔ h.state = .unhealthy ∨ (h.state = .unknown ∧ h.lastRxTime = 0) := by
  rw [← Bool.not_eq_true, Session.armed_iff]
  cases h.state <;> simp

theorem Session.silent_iff {h : Session} {now : Timestamp} :
    h.silent now = true ↔ h.rxTimeout.toNat < now.toNat - h.lastRxTime.toNat := by
  simp [Session.silent]

theorem Session.silent_eq_false_iff {h : Session} {now : Timestamp} :
    h.silent now = false ↔ now.toNat - h.lastRxTime.toNat ≤ h.rxTimeout.toNat := by
  simp [Session.silent]

/-- Settles O18: it holds, by the four outcomes of `HB_CHECK` in a session; the worked example is 5100 after the last
heartbeat, with a timeout of 5000. -/
theorem checkReportsSilenceBeyondTheTimeout : Obligations.CheckReportsSilenceBeyondTheTimeout := by
  refine ⟨fun s h now hs ha => exec_hbCheck_of_not_armed hs now (Session.armed_eq_false_iff.mpr ha),
    fun s h now hs ha hn => exec_hbCheck_of_early hs (Session.armed_iff.mpr ha) hn,
    fun s h now hs ha hn hsil => exec_hbCheck_of_silent hs (Session.armed_iff.mpr ha) hn (Session.silent_iff.mpr hsil),
    fun s h now hs ha hn hsil =>
      exec_hbCheck_of_not_silent hs (Session.armed_iff.mpr ha) hn (Session.silent_eq_false_iff.mpr hsil),
    fun now => rfl, fun s h hs hto hrx hst => ?_⟩
  have hn : h.lastRxTime.toNat ≤ (7100 : Timestamp).toNat := by rw [hrx]; decide
  have hsil : h.silent 7100 = true := Session.silent_iff.mpr (by rw [hto, hrx]; decide)
  exact exec_hbCheck_of_silent hs (Session.armed_iff.mpr (.inl hst)) hn hsil

/-- The supervisor is not armed, its receive half at these values. -/
def State.Disarmed (st : HealthState) (rx : Timestamp) (s : State) : Prop :=
  ∃ h, s.session = some h ∧ h.armed = false ∧ h.state = st ∧ h.lastRxTime = rx

/-- Only a heartbeat or a reset arms it again, and nothing else writes the receive half before that. -/
theorem exec_ensures_disarmed {i : Instr} (hnote : notesHeartbeat i = false) (hreset : ∀ tx rx, i ≠ .reset tx rx)
    {st : HealthState} {rx : Timestamp} {s : State} (hs : s.Disarmed st rx) : Ensures (State.Disarmed st rx) (exec i s) := by
  intro t ht
  obtain ⟨h, hh, harmed, hst, hrx⟩ := hs
  obtain ⟨g, hg, hc⟩ := exec_changed_of_session hh ht
  cases hc with
  | kept => exact ⟨h, hg, harmed, hst, hrx⟩
  | started tx rx => exact absurd rfl (hreset tx rx)
  | ticked => exact ⟨_, hg, harmed, hst, hrx⟩
  | noted hi => simp [hi] at hnote
  | silenced ha => simp [ha] at harmed

/-- A check that reports leaves the latch behind. -/
theorem exec_hbCheck_eq_report {now : Timestamp} {s t : State} (h : exec (.hbCheck now) s = .next t)
    (ha : t.answer = .report true) : t.Disarmed .unhealthy 0 := by
  obtain ⟨g, -, ⟨-, -, -, rfl⟩ | ⟨-, -, -, rfl⟩ | ⟨-, rfl⟩⟩ := exec_hbCheck_eq_next h
  · exact ⟨_, rfl, rfl, rfl, rfl⟩
  · cases ha
  · cases ha

/-- Settles O24: it holds. The report sets `Unhealthy`, which is not armed, and only a heartbeat or a reset arms again. -/
theorem oneSilenceIsReportedOnce : Obligations.OneSilenceIsReportedOnce := by
  intro s t u ops now now' ht hta hops hu
  obtain ⟨h, hh, harmed, hst, -⟩ := performAll_ensures
    (fun i hi _ => exec_ensures_disarmed (hops i hi).1 (hops i hi).2) (exec_hbCheck_eq_report ht hta) u hu
  exact ⟨exec_hbCheck_of_not_armed hh now' harmed, by simp [State.healthy, Session.healthy, hh, hst]⟩

/-! ### The transition table -/

/-- The row of `HB_RX` in R119. -/
theorem exec_hbRx_state {id : CanId} {now : Timestamp} {s t : State} {h : Session} (hs : s.session = some h)
    (ht : exec (.hbRx id now) s = .next t) :
    ∃ h', t.session = some h' ∧ h'.state = if id = 0x104 then .healthy else h.state := by
  obtain ⟨g, hg, ⟨rfl, rfl⟩ | ⟨hid, rfl⟩⟩ := noteReceive_eq_next ht
  · exact ⟨_, rfl, rfl⟩
  · exact ⟨h, hs, (if_neg hid).symm⟩

/-- The rows of `HB_CHECK` in R119. -/
theorem exec_hbCheck_state {now : Timestamp} {s t : State} {h : Session} (hs : s.session = some h)
    (ht : exec (.hbCheck now) s = .next t) :
    ∃ h', t.session = some h' ∧ h'.state = if h.armed && h.silent now then .unhealthy else h.state := by
  obtain ⟨g, hg, hcases⟩ := exec_hbCheck_eq_next ht
  obtain rfl : h = g := Option.some.inj (hs.symm.trans hg)
  obtain ⟨ha, -, hsil, rfl⟩ | ⟨ha, -, hsil, rfl⟩ | ⟨ha, rfl⟩ := hcases
  · exact ⟨_, rfl, by simp [ha, hsil]⟩
  · exact ⟨h, hs, by simp [hsil]⟩
  · exact ⟨h, hs, by simp [ha]⟩

/-- The rows of the other operations in R119, which write no `state` (R29). -/
theorem exec_state_of_other {i : Instr} {s t : State} {h : Session} (hop : i.format = .op) (hs : s.session = some h)
    (ht : exec i s = .next t) (hreset : ∀ tx rx, i ≠ .reset tx rx) (hrx : ∀ id now, i ≠ .hbRx id now)
    (hcheck : ∀ now, i ≠ .hbCheck now) : ∃ h', t.session = some h' ∧ h'.state = h.state := by
  obtain ⟨-, hregs⟩ := eachRegisterHasItsOwnWriters i s t hop ht
  obtain ⟨h', hh', -, -, -, -, hst⟩ := hregs h hs hreset
  refine ⟨h', hh', by_contra fun hne => ?_⟩
  obtain ⟨id, now, rfl⟩ | ⟨now, rfl⟩ := hst hne
  · exact hrx id now rfl
  · exact hcheck now rfl

/-- Only a reset leads to `Unknown`, from any other state (R119, spec/70_reset_and_hazards.md R181). -/
theorem exec_state_eq_unknown {i : Instr} {s t : State} {h h' : Session} (hs : s.session = some h)
    (ht : exec i s = .next t) (hh' : t.session = some h') (hu : h'.state = .unknown) :
    (∃ tx rx, i = .reset tx rx) ∨ h.state = .unknown := by
  obtain ⟨g, hg, hc⟩ := exec_changed_of_session hs ht
  obtain rfl := hg.symm.trans hh'
  cases hc with
  | kept => exact .inr hu
  | started tx rx => exact .inl ⟨tx, rx, rfl⟩
  | ticked => exact .inr hu
  | noted => cases hu
  | silenced => cases hu

/-- Settles O19: it holds, row by row of the table; that no other edge leads back to `Unknown` is one lemma for all rows. -/
theorem healthStateFollowsTheTransitionTable : Obligations.HealthStateFollowsTheTransitionTable := by
  intro i s t h hop hs ht
  have back {h' : Session} (hh' : t.session = some h') (hu : h'.state = .unknown) (hne : h.state ≠ .unknown) :
      ∃ tx rx, i = .reset tx rx := (exec_state_eq_unknown hs ht hh' hu).resolve_right hne
  cases i with
  | reset tx rx =>
    cases (exec_reset tx rx s).symm.trans ht
    exact ⟨_, rfl, fun _ => rfl, nofun, nofun, nofun, nofun, fun hne => absurd rfl (hne tx rx), back rfl⟩
  | hbRx id n =>
    obtain ⟨h', hh', hst⟩ := exec_hbRx_state hs ht
    refine ⟨h', hh', nofun, ?_, ?_, nofun, nofun, fun _ hne => absurd rfl (hne id n), back hh'⟩
    · rintro _ ⟨⟩
      exact hst
    · rintro _ _ ⟨⟩ hid
      rwa [if_neg hid] at hst
  | hbCheck n =>
    obtain ⟨h', hh', hst⟩ := exec_hbCheck_state hs ht
    refine ⟨h', hh', nofun, nofun, nofun, ?_, ?_, fun _ _ hne => absurd rfl (hne n), back hh'⟩
    · rintro _ ⟨⟩ hsil harmed
      simpa [Session.armed_iff.mpr harmed, Session.silent_iff.mpr hsil] using hst
    · rintro _ ⟨⟩ (hsil | hunarmed)
      · simpa [Session.silent_eq_false_iff.mpr hsil] using hst
      · simpa [Session.armed_eq_false_iff.mpr hunarmed] using hst
  | encode | decode | hbTick | cmdEncode | estopEncode | configEncode =>
    obtain ⟨h', hh', hst⟩ := exec_state_of_other hop hs ht nofun nofun nofun
    exact ⟨h', hh', nofun, nofun, nofun, nofun, nofun, fun _ _ _ => hst, back hh'⟩
  | frame | frameMotorCmd | frameEmergencyStop | frameConfig | frameHeartbeatOut | frameHeartbeatIn => cases hop

/-! ### The halves do not interact -/

/-- The registers `HB_TICK` reads (R29). -/
def Session.transmitHalf (h : Session) : Timestamp × Timestamp := (h.lastTxTime, h.txInterval)

/-- The two states agree on all that `HB_TICK` reads. -/
def State.SameTransmitHalf (s t : State) : Prop :=
  t.params = s.params ∧ t.session.map Session.transmitHalf = s.session.map Session.transmitHalf

theorem exec_ensures_sameTransmitHalf {i : Instr} (hi : (∃ id n, i = .hbRx id n) ∨ ∃ n, i = .hbCheck n) {s u : State}
    (hu : s.SameTransmitHalf u) : Ensures (State.SameTransmitHalf s) (exec i u) := by
  intro t ht
  obtain ⟨hparams, hhalf⟩ := hu
  obtain ⟨hparams', -⟩ := exec_answersGrow i u t ht
  refine ⟨hparams'.trans hparams, .trans ?_ hhalf⟩
  obtain ⟨g', hg', hc⟩ := exec_changed_of_session rfl ht
  rw [hg']
  generalize u.session = g at hc
  cases hc with
  | kept => rfl
  | started | ticked => simp at hi
  | noted | silenced => rfl

section SameTransmitHalf

variable {s t : State} (hst : s.SameTransmitHalf t) {now : Timestamp}

include hst

theorem State.SameTransmitHalf.session_none (hs : s.session = none) : t.session = none := by
  simpa [hs] using hst.2

theorem State.SameTransmitHalf.session_some {h : Session} (hs : s.session = some h) :
    ∃ h', t.session = some h' ∧ h'.lastTxTime = h.lastTxTime ∧ h'.txInterval = h.txInterval := by
  simpa [hs, Session.transmitHalf] using hst.2

/-- `HB_TICK` answers the same in both states. -/
theorem State.SameTransmitHalf.exec_hbTick_next {u : State} (hu : exec (.hbTick now) s = .next u) :
    ∃ v, exec (.hbTick now) t = .next v ∧ v.answer = u.answer := by
  obtain ⟨h, hh, hn, hcases⟩ := exec_hbTick_eq_next hu
  obtain ⟨h', hh', htx, hint⟩ := hst.session_some hh
  rw [← htx] at hn
  rw [← Session.emitDue_congr htx hint] at hcases
  obtain ⟨hd, rfl⟩ | ⟨hd, rfl⟩ := hcases
  · exact ⟨_, exec_hbTick_of_due hh' hn hd, by simp [hst.1]⟩
  · exact ⟨_, exec_hbTick_of_not_due hh' hn hd, rfl⟩

/-- `HB_TICK` is refused alike in both states. -/
theorem State.SameTransmitHalf.exec_hbTick_refused {r : Refusal} (hr : exec (.hbTick now) s = .refused r) :
    exec (.hbTick now) t = .refused r := by
  obtain ⟨hs, rfl⟩ | ⟨h, hs, hn, rfl⟩ := exec_hbTick_eq_refused hr
  · exact exec_hbTick_of_no_session now (hst.session_none hs)
  · obtain ⟨h', hh', htx, -⟩ := hst.session_some hs
    exact exec_hbTick_of_early hh' (htx ▸ hn)

end SameTransmitHalf

/-- R121 for the other half: `HB_TICK` leaves `state` and `last_rx_time`, and with them `healthy`. -/
theorem exec_hbTick_receive_half {now : Timestamp} {s t : State} (h : exec (.hbTick now) s = .next t) :
    t.healthy = s.healthy ∧
    t.session.map (fun h => (h.state, h.lastRxTime)) = s.session.map (fun h => (h.state, h.lastRxTime)) := by
  obtain ⟨g, hg, -, ⟨-, rfl⟩ | ⟨-, rfl⟩⟩ := exec_hbTick_eq_next h
  · rw [State.healthy, State.healthy, hg]
    exact ⟨rfl, rfl⟩
  · exact ⟨rfl, rfl⟩

/-- Settles O20: it holds. `HB_RX` and `HB_CHECK` leave all that `HB_TICK` reads, and it leaves what they write. -/
theorem transmitAndReceiveHalvesDoNotInteract : Obligations.TransmitAndReceiveHalvesDoNotInteract := by
  have same {s t : State} {ops : List Instr} (hops : ∀ i ∈ ops, (∃ id n, i = .hbRx id n) ∨ ∃ n, i = .hbCheck n)
      (ht : performAll ops s = .next t) : s.SameTransmitHalf t :=
    performAll_ensures (fun i hi _ => exec_ensures_sameTransmitHalf (hops i hi)) ⟨rfl, rfl⟩ t ht
  refine ⟨fun s t u ops now hops ht => (same hops ht).exec_hbTick_next,
    fun s t ops now r hops ht => (same hops ht).exec_hbTick_refused, fun s t now => exec_hbTick_receive_half⟩

end Sys2Proof.Machine

/-!
SUPPORT. The messages of the payload encoders: the speed byte, and the frame that carries a message (spec/42_command_payloads.md
R131 to R136).
-/
namespace Sys2Proof.Machine

/-! ### The speed byte -/

/-- A clamped speed fits a byte, so that bits 7..0 lose nothing of it. -/
theorem clampSpeed_toNat (sp : Speed) : ((clampSpeed sp).toNat : Int) = min (max sp.toInt 0) 100 := by
  rw [clampSpeed, BitVec.toNat_ofInt]
  omega

@[simp] theorem speedByte_stop (sp : Speed) : speedByte .stop sp = 0 := rfl

theorem speedByte_of_ne_stop {v : Variant} (h : v ≠ .stop) (sp : Speed) : speedByte v sp = clampSpeed sp := by
  cases v with
  | stop => exact absurd rfl h
  | forward | backward | turnLeft | turnRight => rfl

theorem exec_cmdEncode_of_bytes {v : Variant} {sp : Speed} {s : State} {c b : Byte}
    (hc : cmdCode s.params.cmdCodes v = c) (hb : speedByte v sp = b) :
    exec (.cmdEncode v sp) s = .next (s.setAnswer (.message 0x100 [c, b, 0, 0, 0, 0, 0, 0])) := by
  rw [exec_cmdEncode, hc, hb]

/-- Settles O27: it holds. A variant other than Stop takes the clamped speed, and the document's cases clamp from above, from
below, and not at all. -/
theorem commandCarriesCodeAndClampedSpeed : Obligations.CommandCarriesCodeAndClampedSpeed := by
  refine ⟨fun s v sp => ⟨speedByte v sp, exec_cmdEncode v sp s, ?stop, ?moving⟩, fun v sp => rfl, fun s hs => ?cases⟩
  case stop =>
    rintro rfl
    exact speedByte_stop sp
  case moving =>
    intro hv
    rw [speedByte_of_ne_stop hv, clampSpeed_toNat]
  case cases =>
    have code (v : Variant) : cmdCode s.params.cmdCodes v = cmdCode Params.default.cmdCodes v := by rw [hs]
    exact ⟨exec_cmdEncode_of_bytes (code _) (by decide), exec_cmdEncode_of_bytes (code _) (by decide),
      exec_cmdEncode_of_bytes (code _) (speedByte_stop 80)⟩

/-! ### The frame of a message -/

section Message

variable {i : Instr} {s : State} {id : CanId} {p : List Byte} (hm : exec i s = .next (s.setAnswer (.message id p)))
  (hl : Legal id p)

include hm hl

/-- `ENCODE` after an operation that answered a legal message (R133 (d)). -/
theorem performAll_message_encode :
    performAll [i, .encode id p] s = .next (s.setAnswer (.frame (buildFrame s.params id p))) := by
  rw [performAll_after_answer hm, exec_encode_of_legal hl]

/-- What an operation answered is sent over an open transport as the frame that `ENCODE` builds (R76). -/
theorem send_message_of_open (ho : s.transportOpen = true) {t : Frame} (ht : buildFrame s.params id p = t) :
    ∃ u, andThen (exec i s) (sendMessage true) = .next u ∧ u.written = s.written ++ [t] := by
  have hsend : sendMessage true (s.setAnswer (.message id p)) = send true id p (s.setAnswer (.message id p)) := rfl
  have ho' : ((s.setAnswer (.message id p)).setAnswer (.frame t)).transportOpen = true := ho
  rw [hm, andThen_next, hsend, send_of_encodable (encodable_iff.mpr hl), State.setAnswer_params, ht, transportWrite_ok ho']
  exact ⟨_, rfl, rfl⟩

end Message

/-- Settles O28: it holds; the frame is the one that the default parameters give the message. -/
theorem emergencyStopMessage : Obligations.EmergencyStopMessage := by
  refine ⟨exec_estopEncode, rfl, fun s hs ho => ?_⟩
  exact send_message_of_open (exec_estopEncode s) (by decide) ho (by rw [hs]; decide)

/-- Settles O29: it holds; the two bytes of the timeout are its quotient and remainder by 256. -/
theorem configurationMessage : Obligations.ConfigurationMessage := by
  refine ⟨fun s m tmo => ?bytes, fun m tmo => rfl, fun s hs ho => ⟨exec_configEncode 80 5000 s, ?frame⟩⟩
  case bytes =>
    exact ⟨hiByte tmo, loByte tmo, exec_configEncode m tmo s, hiByte_toNat tmo, loByte_toNat tmo⟩
  case frame =>
    exact send_message_of_open (exec_configEncode 80 5000 s) (by decide) ho (by rw [hs]; decide)

/-! ### Eight bytes -/

/-- Each payload encoder answers 8 bytes under an identifier that `ENCODE` accepts. -/
theorem exec_payload_encoder {i : Instr} (s : State)
    (hi : (∃ v sp, i = .cmdEncode v sp) ∨ i = .estopEncode ∨ (∃ m tmo, i = .configEncode m tmo)) :
    ∃ id p, exec i s = .next (s.setAnswer (.message id p)) ∧ id.toNat ≤ 0x7FF ∧ p.length = 8 := by
  obtain ⟨v, sp, rfl⟩ | rfl | ⟨m, tmo, rfl⟩ := hi
  · exact ⟨_, _, exec_cmdEncode v sp s, by decide, rfl⟩
  · exact ⟨_, _, exec_estopEncode s, by decide, rfl⟩
  · exact ⟨_, _, exec_configEncode m tmo s, by decide, rfl⟩

/-- Settles O30: it holds. Eight bytes are the most that `ENCODE` accepts, and they fill the payload window. -/
theorem messagesAreEightBytesAndEncodable : Obligations.MessagesAreEightBytesAndEncodable := by
  intro s i hi
  obtain ⟨id, p, hm, hid, hlen⟩ := exec_payload_encoder s hi
  have hl : Legal id p := ⟨hid, hlen.le⟩
  refine ⟨id, p, buildFrame s.params id p, hm, hlen, hl, performAll_message_encode hm hl, ?dlc, fun k hk => ?payload⟩
  case dlc => exact congrArg (BitVec.ofNat 8) hlen
  case payload => exact buildFrame_payload s.params hl.2 (hlen.symm ▸ hk)

end Sys2Proof.Machine

/-!
SUPPORT. The control loop, one step at a time (spec/43_control_loop.md R141 to R148): what a step is where the loop stands, what
each part of an iteration answers, and the frames of the loop.
-/
namespace Sys2Proof.Machine

/-! ### The step where the loop stands -/

theorem step_of_start {s : State} (hr : s.requests = []) (hp : s.phase = .start) : step s = startPhase s := by
  rw [step_of_no_request hr, loopStep_start hp]

/-- After the exit nothing is issued, whatever is scheduled. -/
theorem step_of_exited {s : State} (hr : s.requests = []) (hp : s.phase = .exited) : step s = .next s := by
  have hne : s.phase ≠ .start := by simp [hp]
  rw [step_of_no_request hr]
  cases hsch : s.schedule with
  | nil => exact loopStep_idle hne hsch
  | cons it rest => simp [loopStep_iteration hne hsch, iterationStep, hp]

section Step

variable {s : State} {it : Iteration} {rest : List Iteration} (hr : s.requests = []) (hsch : s.schedule = it :: rest)

include hr hsch

theorem step_of_iteration (hp : s.phase ≠ .start) : step s = iterationStep it rest s := by
  rw [step_of_no_request hr, loopStep_iteration hp hsch]

theorem step_of_shutdown (hp : s.phase = .receive) (hd : it.shutdown = true) :
    step s = andThen (endSession it s) fun u => .next (u.setSchedule rest) := by
  simp [step_of_iteration hr hsch, iterationStep, hp, hd]

theorem step_of_receive (hp : s.phase = .receive) (hd : it.shutdown = false) :
    step s = andThen (receivePhase it s) fun u => .next (u.setPhase .tick) := by
  simp [step_of_iteration hr hsch, iterationStep, hp, hd]

theorem step_of_tick (hp : s.phase = .tick) : step s = andThen (tickPhase it s) fun u => .next (u.setPhase .check) := by
  simp [step_of_iteration hr hsch, iterationStep, hp]

theorem step_of_check (hp : s.phase = .check) :
    step s = andThen (checkPhase it s) fun u => .next (u.setPhase .command) := by
  simp [step_of_iteration hr hsch, iterationStep, hp]

theorem step_of_command (hp : s.phase = .command) :
    step s = andThen (commandPhase it s) fun u => .next (u.setPhase .sleep) := by
  simp [step_of_iteration hr hsch, iterationStep, hp]

theorem step_of_sleep (hp : s.phase = .sleep) : step s = .next ((s.setSchedule rest).setPhase .receive) := by
  simp [step_of_iteration hr hsch, iterationStep, hp]

end Step

/-- Settles O42: it holds, by the two outcomes of opening the transport. -/
theorem sessionStartsWithOpenTransportAndReset : Obligations.SessionStartsWithOpenTransportAndReset := by
  refine fun s hr => ⟨fun hp ho => ?opened, fun hp ho => ?failed, step_of_exited hr⟩
  case opened =>
    rw [step_of_start hr hp, startPhase, if_pos ho, exec_reset]
    rfl
  case failed =>
    rw [step_of_start hr hp, startPhase, if_neg (by simp [ho])]
    rfl

/-! ### Step 1: receive -/

/-- A frame of a kind is received like any other group of 20 bytes, so step 1 is `TRY_RECEIVE` and the routing of its result. -/
theorem receivePhase_eq (it : Iteration) (s : State) :
    receivePhase it s = routeReceived (tryReceive it.group (s.setClock it.receiveNow)) := by
  unfold receivePhase
  cases it.group with
  | none => rfl
  | some bs =>
    cases hf : frameOfBytes bs with
    | ok f => simp [receiveGroup_of_frame hf, receiveFrame, tryReceive, hf]
    | error e => simp [receiveGroup_of_no_frame hf, tryReceive, hf]

/-- A group that stands for an instruction: that instruction is performed. -/
theorem receivePhase_of_decode {it : Iteration} {bs : List Byte} {i : Instr} (hg : it.group = some bs)
    (hd : decode .f20 bs = .ok i) (s : State) : receivePhase it s = exec i (s.setClock it.receiveNow) := by
  simp [receivePhase, receiveGroup, hg, hd]

/-- With a pair, `TRY_RECEIVE` has written nothing but `DECODE`'s answer. -/
theorem tryReceive_eq_some {group : Option (List Byte)} {s t : State} {id : CanId} {p : List Byte}
    (h : tryReceive group s = (some (id, p), t)) : t = s.setAnswer (.decoded (.ok id p)) := by
  cases group with
  | none => cases h
  | some bs =>
    cases hf : frameOfBytes bs with
    | error e => simp [tryReceive, hf] at h
    | ok f =>
      cases hp : parseFrame f with
      | err k => simp [tryReceive, hf, tryReceiveFrame_of_err hp] at h
      | ok id' p' =>
        obtain ⟨⟨rfl, rfl⟩, rfl⟩ := by simpa [tryReceive, hf, tryReceiveFrame_of_ok hp] using h
        rfl

theorem route_heartbeat (p : List Byte) (s : State) :
    route Config.heartbeatIn p s = noteReceive Config.heartbeatIn s.clock s := if_pos rfl

theorem route_other {id : CanId} (hid : id ≠ Config.heartbeatIn) (p : List Byte) (s : State) :
    route id p s = .next (s.addSink id p) := if_neg hid

theorem noteReceive_of_no_session {s : State} (h : s.session = none) (id : CanId) (now : Timestamp) :
    noteReceive id now s = .refused .noSession := withSession_none h

/-- Settles O55: it holds, result by result of `TRY_RECEIVE`. -/
theorem stepOneRoutesWhatTryReceiveAnswers : Obligations.StepOneRoutesWhatTryReceiveAnswers := by
  intro s t it rest r hr hp hsch hd htry
  have hstep : step s = andThen (routeReceived (r, t)) fun u => .next (u.setPhase .tick) := by
    rw [step_of_receive hr hsch hp hd, receivePhase_eq, ← htry]
    rfl
  have kept {id : CanId} {p : List Byte} (h : r = some (id, p)) :
      t.session = s.session ∧ t.clock = it.receiveNow ∧ t.sink = s.sink := by
    obtain rfl := tryReceive_eq_some (h ▸ htry)
    exact ⟨rfl, rfl, rfl⟩
  refine ⟨?nothing, ?heartbeat, ?noSession, ?other⟩
  case nothing =>
    rintro rfl
    exact hstep
  case heartbeat =>
    rintro p h rfl hs
    obtain ⟨hsession, hclock, -⟩ := kept rfl
    rw [hstep, routeReceived_some, route_heartbeat, noteReceive_heartbeat (hsession.trans hs), ← hclock]
    rfl
  case noSession =>
    rintro p rfl hs
    obtain ⟨hsession, -, -⟩ := kept rfl
    rw [hstep, routeReceived_some, route_heartbeat, noteReceive_of_no_session (hsession.trans hs), andThen_refused]
  case other =>
    rintro id p rfl hid
    obtain ⟨-, -, hsink⟩ := kept rfl
    rw [hstep, routeReceived_some, route_other hid, ← hsink]
    rfl

/-- Settles O39: it holds, by what step 1 does with a group that is an instruction. -/
theorem stepReceivesTheArrivedFrame : Obligations.StepReceivesTheArrivedFrame := by
  intro s it rest bs i hr hp hsch hd hg hi _
  rw [step_of_receive hr hsch hp hd, receivePhase_of_decode hg hi]
  rfl

theorem headerGood_of_not_hasSync {f : Frame} (h : ¬ f.HasSync) : headerGood f = false := by
  rw [← Bool.not_eq_true]
  exact mt headerGood_iff.mp h

/-- Settles O40: it holds, since `TRY_RECEIVE` answers none in each case, and logs only what has a frame's length. -/
theorem stepWithoutAFrameReceivesNothing : Obligations.StepWithoutAFrameReceivesNothing := by
  intro s it rest hr hp hsch hd
  have routes {t : State} (ht : tryReceive it.group (s.setClock it.receiveNow) = (none, t)) :
      step s = .next { t with phase := .tick } := by
    obtain ⟨hnone, -⟩ := stepOneRoutesWhatTryReceiveAnswers s t it rest none hr hp hsch hd ht
    exact hnone rfl
  refine ⟨?noFrame, fun f hg hf => ?badHeader⟩
  case noFrame =>
    rintro (hg | ⟨bs, hg, hl⟩)
    · exact routes (by rw [hg, tryReceive_none])
    · exact routes (by rw [hg, tryReceive_of_length_ne hl])
  case badHeader =>
    have hparse := parseFrame_of_bad_header (headerGood_of_not_hasSync hf)
    exact routes (by rw [hg, tryReceive_frame, tryReceiveFrame_of_err hparse])

/-! ### Accepted frames of the six kinds -/

theorem hasSync_of_wellFormed {k : FrameKind} {f : Frame} (h : (k.instr f).WellFormed) : f.HasSync := by
  cases k <;> exact h.1

theorem parseFrame_of_wellFormed {k : FrameKind} {f : Frame} (h : (k.instr f).WellFormed)
    (hc : f[19].toNat = (byteSum f + 1) % 256) :
    parseFrame f = .ok (joinId f[3] f[5]) (memRead f 10 (clampDlc f[9])) :=
  parseFrame_of_good (headerGood_iff.mpr (hasSync_of_wellFormed h)) (checksumGood_iff_byteSum.mpr hc)

theorem joinId_eq_heartbeatIn_iff {hi lo : Byte} : joinId hi lo = Config.heartbeatIn ↔ hi = 0x01 ∧ lo = 0x04 := by
  rw [← BitVec.toNat_inj, ← BitVec.toNat_inj, ← BitVec.toNat_inj, joinId_toNat]
  have hlo := lo.isLt
  change hi.toNat * 256 + lo.toNat = 260 ↔ hi.toNat = 1 ∧ lo.toNat = 4
  omega

/-- Of the six kinds only one decodes to the heartbeat identifier (R69). -/
theorem joinId_eq_heartbeatIn_iff_kind {k : FrameKind} {f : Frame} (h : (k.instr f).WellFormed) :
    joinId f[3] f[5] = Config.heartbeatIn ↔ k = .heartbeatIn := by
  rw [joinId_eq_heartbeatIn_iff]
  cases k with
  | any =>
    obtain ⟨-, hn⟩ := h
    exact iff_of_false (fun hid => hn (.inr (.inr (.inr (.inr hid))))) nofun
  | motorCmd | emergencyStop | config | heartbeatOut | heartbeatIn =>
    obtain ⟨-, h3, h5⟩ := h
    simp [h3, h5]

/-- An accepted frame of a kind that is no heartbeat goes to the sink (R143). -/
theorem receiveFrame_of_other_kind {k : FrameKind} {f : Frame} (h : (k.instr f).WellFormed)
    (hc : f[19].toNat = (byteSum f + 1) % 256) (hk : k ≠ .heartbeatIn) (s : State) :
    receiveFrame f s = .next ((s.setAnswer (.decoded (.ok (joinId f[3] f[5]) (memRead f 10 (clampDlc f[9]))))).addSink
      (joinId f[3] f[5]) (memRead f 10 (clampDlc f[9]))) :=
  receiveFrame_of_other (parseFrame_of_wellFormed h hc) (mt (joinId_eq_heartbeatIn_iff_kind h).mp hk) s

/-- An accepted heartbeat frame is `HB_RX` with the host's clock (R143). -/
theorem exec_frameHeartbeatIn {f : Frame} (h : (Instr.frameHeartbeatIn f).WellFormed)
    (hc : f[19].toNat = (byteSum f + 1) % 256) (s : State) :
    exec (.frameHeartbeatIn f) s = exec (.hbRx 0x104 s.clock) s := by
  have hw : (FrameKind.heartbeatIn.instr f).WellFormed := h
  exact receiveFrame_of_heartbeat (parseFrame_of_wellFormed hw hc) ((joinId_eq_heartbeatIn_iff_kind hw).mpr rfl) s

/-- Settles O31: it holds, since none of the five kinds decodes to the heartbeat identifier. -/
theorem otherFramesGoToTheSink : Obligations.OtherFramesGoToTheSink := by
  intro s f i hw hc hi
  obtain ⟨k, hk, rfl⟩ : ∃ k, k ≠ .heartbeatIn ∧ i = FrameKind.instr k f := by
    obtain rfl | rfl | rfl | rfl | rfl := hi
    · exact ⟨.any, nofun, rfl⟩
    · exact ⟨.motorCmd, nofun, rfl⟩
    · exact ⟨.emergencyStop, nofun, rfl⟩
    · exact ⟨.config, nofun, rfl⟩
    · exact ⟨.heartbeatOut, nofun, rfl⟩
  refine ⟨joinId f[3] f[5], memRead f 10 (clampDlc f[9]), joinId_toNat _ _, rfl, ?_⟩
  rw [exec_frame_kind]
  exact receiveFrame_of_other_kind hw hc hk s

/-- Settles O32: it holds, by the outcomes of `HB_RX` with and without a session. -/
theorem heartbeatFramesFeedTheSupervisor : Obligations.HeartbeatFramesFeedTheSupervisor := by
  intro s f hw hc
  have hrx := exec_frameHeartbeatIn hw hc s
  exact ⟨hrx, fun h hs => hrx.trans (noteReceive_heartbeat hs s.clock),
    fun hs => hrx.trans (noteReceive_of_no_session hs _ _)⟩

/-! ### The frames of the loop -/

/-- A write to an open transport: the frame is on the line, or the failure is logged (R165 (a)). -/
theorem transportWrite_of_open {s : State} (ho : s.transportOpen = true) (ok : Bool) (t : Frame) :
    transportWrite ok t s = { s with
      written := if ok then s.written ++ [t] else s.written,
      log := if ok then s.log else s.log ++ [.writeFailed] } := by
  cases ok with
  | true => rw [transportWrite_ok ho]; rfl
  | false => rw [transportWrite_failed]; rfl

/-- A payload of zeros leaves every slot 0x00, those beyond its end too. -/
theorem slot_replicate_zero (n i : Nat) : slot (List.replicate n 0x00) i = 0x00 := by
  obtain hi | hi := Nat.lt_or_ge i n
  · rw [slot_of_lt _ (by simpa using hi), List.getElem_replicate]
  · exact slot_of_le _ (by simpa using hi)

/-- The frame of a motor command (R131): its code and its speed byte, and the rest of the payload 0x00. -/
theorem buildFrame_command (p : Params) (c b : Byte) {t : Frame}
    (ht : t = buildFrame p Config.motorCmd [c, b, 0, 0, 0, 0, 0, 0]) :
    t[3] = 0x01 ∧ t[5] = 0x00 ∧ t[9] = 0x08 ∧ t[10] = c ∧ t[11] = b ∧
      (∀ i < 8, 2 ≤ i → t[10 + i]? = some 0x00) ∧ IsEncoded t := by
  subst ht
  refine ⟨rfl, rfl, rfl, rfl, rfl, fun i hi hle => ?_, buildFrame_isEncoded p (encodable_command c b)⟩
  obtain ⟨j, rfl⟩ := Nat.exists_eq_add_of_le' hle
  rw [buildFrame_slot _ _ _ hi]
  exact congrArg some (slot_replicate_zero 6 j)

/-- `SEND_CMD` over an open transport: the frame that `ENCODE` gives for `CMD_ENCODE`'s message, written once (R76). -/
theorem sendCmd_of_open {s : State} (ho : s.transportOpen = true) (ok : Bool) (c : MotorCommand) :
    ∃ t, t = buildFrame s.params Config.motorCmd
        [cmdCode s.params.cmdCodes c.variant, speedByte c.variant c.speedPercent, 0, 0, 0, 0, 0, 0] ∧
      sendCmd ok c s = .next { s with
        answer := .frame t,
        written := if ok then s.written ++ [t] else s.written,
        log := if ok then s.log else s.log ++ [.writeFailed] } := by
  obtain ⟨t, ht, h⟩ := sendCmd_eq ok c s
  refine ⟨t, ht, ?_⟩
  rw [h, transportWrite_of_open (by simpa using ho)]
  rfl

theorem commandPhase_of_no_event {it : Iteration} (he : it.event = none) (s : State) : commandPhase it s = .next s := by
  simp [commandPhase, he]

theorem commandPhase_of_event {it : Iteration} {c : MotorCommand} (he : it.event = some c) (s : State) :
    commandPhase it s = sendCmd it.commandWriteOk c s := by
  simp [commandPhase, he]

/-- Settles O46: it holds. The frame is that of the command's message, and its speed byte is clamped but for Stop. -/
theorem atMostOneCommandPerIteration : Obligations.AtMostOneCommandPerIteration := by
  intro s it rest hr hp hsch ho
  refine ⟨fun he => ?noEvent, fun c he => ?event⟩
  case noEvent =>
    rw [step_of_command hr hsch hp, commandPhase_of_no_event he]
    rfl
  case event =>
    obtain ⟨t, ht, hsend⟩ := sendCmd_of_open ho it.commandWriteOk c
    obtain ⟨h3, h5, h9, h10, h11, hzeros, henc⟩ := buildFrame_command _ _ _ ht
    refine ⟨t, speedByte c.variant c.speedPercent, ?_, exec_cmdEncode _ _ s, ?_, h3, h5, h9, h10, h11, fun hv => ?_,
      fun hv => ?_, hzeros, henc⟩
    · rw [step_of_command hr hsch hp, commandPhase_of_event he, hsend]
      rfl
    · exact exec_encode_of_buildFrame (encodable_iff.mp (encodable_command _ _)) ht.symm
    · rw [h11, hv, speedByte_stop]
    · rw [h11, speedByte_of_ne_stop hv, clampSpeed_toNat]

/-- Settles O43: it holds, the final Stop being a command with code `CMD_CODE[Stop]` and speed 0. -/
theorem sessionEndsWithAFinalStop : Obligations.SessionEndsWithAFinalStop := by
  intro s it rest hr hp hsch hd ho
  obtain ⟨t, ht, hsend⟩ := sendCmd_of_open ho it.commandWriteOk ⟨.stop, 0⟩
  obtain ⟨h3, h5, h9, h10, h11, hzeros, henc⟩ := buildFrame_command _ _ _ ht
  refine ⟨t, ?_, exec_cmdEncode .stop 0 s, ?_, h3, h5, h9, h10, fun i hi hle => ?_, henc, fun hs => ?_⟩
  · rw [step_of_shutdown hr hsch hp hd, endSession, sendStop, hsend]
    rfl
  · exact exec_encode_of_buildFrame (encodable_iff.mp (encodable_command _ _)) ht.symm
  · obtain rfl | hle : i = 1 ∨ 2 ≤ i := by omega
    · rw [Vector.getElem?_eq_getElem (by decide)]
      exact congrArg some h11
    · exact hzeros i hi hle
  · rw [ht, hs]
    decide

/-! ### Steps 2 and 3: the supervisor -/

/-- The frame of a heartbeat (R112): `HB_DLC` in byte 9, and a payload window of zeros. -/
theorem buildFrame_heartbeat (p : Params) {t : Frame} (ht : t = buildFrame p Config.heartbeatOut (zeroPayload p)) :
    t[3] = 0x01 ∧ t[5] = 0x03 ∧ t[9].toNat = p.hbDlc.val ∧ (∀ i < 8, t[10 + i]? = some 0x00) ∧ IsEncoded t := by
  subst ht
  have he := encodable_heartbeat p
  obtain ⟨-, hlen⟩ := encodable_iff.mp he
  refine ⟨rfl, rfl, ?_, fun i hi => ?_, buildFrame_isEncoded p he⟩
  · rw [buildFrame_9_toNat p hlen, zeroPayload, List.length_replicate]
  · rw [buildFrame_slot _ _ _ hi, zeroPayload, slot_replicate_zero]

section Session

variable {s : State} {h : Session} (hs : s.session = some h) {it : Iteration}

include hs

/-- A due heartbeat: the register has moved before anything is written. -/
theorem tickPhase_of_due (ho : s.transportOpen = true) (hn : h.lastTxTime.toNat ≤ it.tickNow.toNat)
    (hd : h.emitDue it.tickNow = true) {t : Frame} (ht : t = buildFrame s.params Config.heartbeatOut (zeroPayload s.params)) :
    tickPhase it s = .next { s with
      clock := it.tickNow, session := some { h with lastTxTime := it.tickNow }, answer := .frame t,
      written := if it.heartbeatWriteOk then s.written ++ [t] else s.written,
      log := if it.heartbeatWriteOk then s.log else s.log ++ [.writeFailed] } := by
  have hs' : (s.setClock it.tickNow).session = some h := hs
  rw [tickPhase, exec_hbTick_of_due hs' hn hd, andThen_next, sendHeartbeat_emit rfl, transportWrite_of_open (by simpa using ho),
    ht]
  rfl

theorem tickPhase_of_not_due (hn : h.lastTxTime.toNat ≤ it.tickNow.toNat) (hd : h.emitDue it.tickNow = false) :
    tickPhase it s = .next ((s.setClock it.tickNow).setAnswer .quiet) := by
  have hs' : (s.setClock it.tickNow).session = some h := hs
  rw [tickPhase, exec_hbTick_of_not_due hs' hn hd, andThen_next, sendHeartbeat_quiet rfl]

theorem tickPhase_of_early (hn : it.tickNow.toNat < h.lastTxTime.toNat) :
    tickPhase it s = .refused .nonMonotonicNow := by
  have hs' : (s.setClock it.tickNow).session = some h := hs
  rw [tickPhase, exec_hbTick_of_early hs' hn, andThen_refused]

theorem checkPhase_of_silent (ha : h.armed = true) (hn : h.lastRxTime.toNat ≤ it.checkNow.toNat)
    (hsil : h.silent it.checkNow = true) : checkPhase it s =
      .next ((((s.setClock it.checkNow).setSession (some { h with state := .unhealthy, lastRxTime := 0 })).setAnswer
        (.report true)).addLog .timeoutReported) := by
  have hs' : (s.setClock it.checkNow).session = some h := hs
  rw [checkPhase, exec_hbCheck_of_silent hs' ha hn hsil, andThen_next, State.setAnswer_answer, if_pos rfl]

theorem checkPhase_of_not_silent (ha : h.armed = true) (hn : h.lastRxTime.toNat ≤ it.checkNow.toNat)
    (hsil : h.silent it.checkNow = false) :
    checkPhase it s = .next ((s.setClock it.checkNow).setAnswer (.report false)) := by
  have hs' : (s.setClock it.checkNow).session = some h := hs
  rw [checkPhase, exec_hbCheck_of_not_silent hs' ha hn hsil, andThen_next, State.setAnswer_answer, if_neg nofun]

theorem checkPhase_of_not_armed (ha : h.armed = false) :
    checkPhase it s = .next ((s.setClock it.checkNow).setAnswer (.report false)) := by
  have hs' : (s.setClock it.checkNow).session = some h := hs
  rw [checkPhase, exec_hbCheck_of_not_armed hs' _ ha, andThen_next, State.setAnswer_answer, if_neg nofun]

theorem checkPhase_of_early (ha : h.armed = true) (hn : it.checkNow.toNat < h.lastRxTime.toNat) :
    checkPhase it s = .refused .nonMonotonicNow := by
  have hs' : (s.setClock it.checkNow).session = some h := hs
  rw [checkPhase, exec_hbCheck_of_early hs' ha hn, andThen_refused]

end Session

/-- Settles O44: it holds, by the three outcomes of `HB_TICK`; the write comes after the register has moved. -/
theorem heartbeatCountsAsSentBeforeItIsWritten : Obligations.HeartbeatCountsAsSentBeforeItIsWritten := by
  intro s h it rest hr hp hsch hs ho
  refine ⟨fun hn hd => ?due, fun hn hd => ?notDue, fun hn => ?early⟩
  case due =>
    refine ⟨buildFrame s.params Config.heartbeatOut (zeroPayload s.params), ?_, ?_, buildFrame_heartbeat s.params rfl⟩
    · rw [step_of_tick hr hsch hp, tickPhase_of_due hs ho hn (Session.emitDue_iff.mpr hd) rfl]
      rfl
    · exact exec_encode_of_encodable (encodable_heartbeat s.params) s
  case notDue =>
    rw [step_of_tick hr hsch hp, tickPhase_of_not_due hs hn (Session.emitDue_eq_false_iff.mpr hd)]
    rfl
  case early => rw [step_of_tick hr hsch hp, tickPhase_of_early hs hn, andThen_refused]

/-- Settles O45: it holds, by the four outcomes of `HB_CHECK`, of which one reports. -/
theorem timeoutIsLoggedAndTheLoopGoesOn : Obligations.TimeoutIsLoggedAndTheLoopGoesOn := by
  intro s h it rest hr hp hsch hs
  rw [step_of_check hr hsch hp]
  refine ⟨fun ha => ?notArmed, fun ha => ⟨fun hn hsil => ?silent, fun hn hsil => ?notSilent, fun hn => ?early⟩⟩
  case notArmed =>
    rw [checkPhase_of_not_armed hs (Session.armed_eq_false_iff.mpr ha)]
    rfl
  case silent =>
    rw [checkPhase_of_silent hs (Session.armed_iff.mpr ha) hn (Session.silent_iff.mpr hsil)]
    rfl
  case notSilent =>
    rw [checkPhase_of_not_silent hs (Session.armed_iff.mpr ha) hn (Session.silent_eq_false_iff.mpr hsil)]
    rfl
  case early => rw [checkPhase_of_early hs (Session.armed_iff.mpr ha) hn, andThen_refused]

/-! ### The order of the steps -/

/-- The iterations still to come, the current one first, are these: what every part of an iteration keeps. -/
def State.Scheduled (its : List Iteration) (s : State) : Prop := s.schedule = its

section Scheduled

variable {s : State} {its : List Iteration}

theorem exec_ensures_scheduled (hs : s.Scheduled its) (i : Instr) : Ensures (State.Scheduled its) (exec i s) := by
  intro t h
  obtain ⟨g, a, -, rfl⟩ | ⟨-, f, hf⟩ := exec_eq_next h
  · exact hs
  · obtain ⟨k, -, rfl⟩ | ⟨p, g, -, -, rfl⟩ | ⟨id, p, -, -, rfl⟩ := receiveFrame_eq_next hf <;> exact hs

theorem transportWrite_scheduled (hs : s.Scheduled its) (ok : Bool) (f : Frame) : (transportWrite ok f s).Scheduled its := by
  obtain h | h := transportWrite_cases ok f s <;> rw [h] <;> exact hs

theorem send_ensures_scheduled (hs : s.Scheduled its) (ok : Bool) (id : CanId) (payload : List Byte) :
    Ensures (State.Scheduled its) (send ok id payload s) :=
  (exec_ensures_scheduled hs (.encode id payload)).andThen fun u hu => by
    split
    · exact ensures_next.mpr (transportWrite_scheduled hu ok _)
    · exact ensures_next.mpr hu

theorem sendCmd_ensures_scheduled (hs : s.Scheduled its) (ok : Bool) (c : MotorCommand) :
    Ensures (State.Scheduled its) (sendCmd ok c s) := by
  obtain ⟨f, -, h⟩ := sendCmd_eq ok c s
  have ha : (s.setAnswer (.frame f)).Scheduled its := hs
  rw [h]
  exact ensures_next.mpr (transportWrite_scheduled ha ok f)

theorem receivePhase_ensures_scheduled (hs : s.Scheduled its) (it : Iteration) :
    Ensures (State.Scheduled its) (receivePhase it s) := by
  have hc : (s.setClock it.receiveNow).Scheduled its := hs
  unfold receivePhase
  cases it.group with
  | none => exact ensures_next.mpr hc
  | some bs =>
    cases hf : frameOfBytes bs with
    | ok f =>
      simp only [receiveGroup_of_frame hf, ← exec_frame_kind .any]
      exact exec_ensures_scheduled hc _
    | error e =>
      simp only [receiveGroup_of_no_frame hf]
      exact ensures_next.mpr hc

theorem tickPhase_ensures_scheduled (hs : s.Scheduled its) (it : Iteration) :
    Ensures (State.Scheduled its) (tickPhase it s) :=
  (exec_ensures_scheduled (s := s.setClock it.tickNow) hs (.hbTick it.tickNow)).andThen fun u hu => by
    unfold sendHeartbeat
    split
    · exact send_ensures_scheduled hu it.heartbeatWriteOk _ _
    · exact ensures_next.mpr hu

theorem checkPhase_ensures_scheduled (hs : s.Scheduled its) (it : Iteration) :
    Ensures (State.Scheduled its) (checkPhase it s) :=
  (exec_ensures_scheduled (s := s.setClock it.checkNow) hs (.hbCheck it.checkNow)).andThen fun u hu => by
    split <;> exact ensures_next.mpr hu

theorem commandPhase_ensures_scheduled (hs : s.Scheduled its) (it : Iteration) :
    Ensures (State.Scheduled its) (commandPhase it s) := by
  cases he : it.event with
  | none => rw [commandPhase_of_no_event he]; exact ensures_next.mpr hs
  | some c => rw [commandPhase_of_event he]; exact sendCmd_ensures_scheduled hs it.commandWriteOk c

end Scheduled

/-- Settles O47: it holds. Steps 1 to 4 move on by one phase and keep the schedule; the sleep drops the iteration that ends. -/
theorem loopTakesItsFiveStepsInOrder : Obligations.LoopTakesItsFiveStepsInOrder := by
  intro s t it rest hr hsch hd ht
  have movesOn {o : Result} {p : Phase} (ho : Ensures (State.Scheduled s.schedule) o)
      (hstep : step s = andThen o fun u => .next (u.setPhase p)) : t.phase = p ∧ t.schedule = s.schedule := by
    obtain ⟨u, hu, hut⟩ := andThen_eq_next.mp (hstep.symm.trans ht)
    cases hut
    exact ⟨rfl, ho u hu⟩
  refine ⟨fun hp => ?receive, fun hp => ?tick, fun hp => ?check, fun hp => ?command, fun hp => ?sleep⟩
  case receive => exact movesOn (receivePhase_ensures_scheduled rfl it) (step_of_receive hr hsch hp hd)
  case tick => exact movesOn (tickPhase_ensures_scheduled rfl it) (step_of_tick hr hsch hp)
  case check => exact movesOn (checkPhase_ensures_scheduled rfl it) (step_of_check hr hsch hp)
  case command => exact movesOn (commandPhase_ensures_scheduled rfl it) (step_of_command hr hsch hp)
  case sleep =>
    cases (step_of_sleep hr hsch hp).symm.trans ht
    rfl

end Sys2Proof.Machine

/-!
SUPPORT. Frame errors and what follows them (spec/60_exceptions.md R160 to R163), and the order of refresh and check in one
iteration (R169, spec/70_reset_and_hazards.md R189).
-/
namespace Sys2Proof.Machine

/-! ### The cause of each error -/

theorem checksumGood_eq_false_iff {f : Frame} : checksumGood f = false ↔ f[19] ≠ cksum f := by
  rw [← Bool.not_eq_true, checksumGood_iff, eq_comm]

theorem parseFrame_eq_invalidHeader_iff {f : Frame} : parseFrame f = .err .invalidHeader ↔ headerGood f = false := by
  refine ⟨fun h => ?_, parseFrame_of_bad_header⟩
  by_contra hgood
  rw [Bool.not_eq_false] at hgood
  cases hc : checksumGood f with
  | true => cases (parseFrame_of_good hgood hc).symm.trans h
  | false => cases (parseFrame_of_bad_checksum hgood hc).symm.trans h

/-- The checksum is tested only behind a good header (R162). -/
theorem parseFrame_eq_checksumMismatch_iff {f : Frame} :
    parseFrame f = .err .checksumMismatch ↔ headerGood f = true ∧ checksumGood f = false := by
  refine ⟨fun h => ?_, fun ⟨hgood, hc⟩ => parseFrame_of_bad_checksum hgood hc⟩
  cases hgood : headerGood f with
  | false => cases (parseFrame_of_bad_header hgood).symm.trans h
  | true =>
    cases hc : checksumGood f with
    | true => cases (parseFrame_of_good hgood hc).symm.trans h
    | false => exact ⟨rfl, rfl⟩

theorem exec_decode_eq_iff {f : Frame} {s : State} {r : DecodeResult} :
    exec (.decode f) s = .next (s.setAnswer (.decoded r)) ↔ parseFrame f = r :=
  ⟨parseFrame_of_exec_decode, fun h => exec_decode_of_parseFrame h s⟩

/-! ### Who answers the result of a `DECODE` -/

/-- Of the operations of the block only `DECODE` answers one: the column of results of R70. -/
theorem exec_answer_eq_decoded {i : Instr} {s t : State} {r : DecodeResult} (hop : i.format = .op)
    (ht : exec i s = .next t) (ha : t.answer = .decoded r) : ∃ f, i = .decode f := by
  cases i with
  | decode f => exact ⟨f, rfl⟩
  | reset tx rx => cases (exec_reset tx rx s).symm.trans ht; cases ha
  | encode id payload =>
    cases he : encodable id payload with
    | true => cases (exec_encode_of_encodable he s).symm.trans ht; cases ha
    | false => cases (exec_encode_of_not_encodable he s).symm.trans ht
  | hbTick now => obtain ⟨g, -, -, ⟨-, rfl⟩ | ⟨-, rfl⟩⟩ := exec_hbTick_eq_next ht <;> cases ha
  | hbRx id now => obtain ⟨g, -, ⟨-, rfl⟩ | ⟨-, rfl⟩⟩ := noteReceive_eq_next ht <;> cases ha
  | hbCheck now =>
    obtain ⟨g, -, ⟨-, -, -, rfl⟩ | ⟨-, -, -, rfl⟩ | ⟨-, rfl⟩⟩ := exec_hbCheck_eq_next ht <;> cases ha
  | cmdEncode v sp => cases (exec_cmdEncode v sp s).symm.trans ht; cases ha
  | estopEncode => cases (exec_estopEncode s).symm.trans ht; cases ha
  | configEncode m n => cases (exec_configEncode m n s).symm.trans ht; cases ha
  | frame | frameMotorCmd | frameEmergencyStop | frameConfig | frameHeartbeatOut | frameHeartbeatIn => cases hop

/-- Settles O9: it holds. Each error is one outcome of a parse, and an operation that answers one performs the parse. -/
theorem onlyDecodeRaisesFrameErrors : Obligations.OnlyDecodeRaisesFrameErrors := by
  refine ⟨fun _ _ => rfl, rfl, rfl, fun s f => ?header, fun s f => ?checksum, fun i s t k ht ha => ?raised⟩
  case header =>
    exact exec_decode_eq_iff.trans (parseFrame_eq_invalidHeader_iff.trans headerGood_eq_false_iff)
  case checksum =>
    refine exec_decode_eq_iff.trans (parseFrame_eq_checksumMismatch_iff.trans ?_)
    rw [headerGood_iff, checksumGood_eq_false_iff, and_assoc]
  case raised =>
    cases hf : i.format with
    | f20 => exact .inl rfl
    | op => exact .inr (exec_answer_eq_decoded hf ht ha)

/-! ### Dropping a frame -/

/-- A frame of a kind has a good header, so its checksum alone decides (R162). -/
theorem parseFrame_of_corrupt {k : FrameKind} {f : Frame} (h : (k.instr f).WellFormed)
    (hc : f[19].toNat ≠ (byteSum f + 1) % 256) : parseFrame f = .err .checksumMismatch := by
  have hbad : checksumGood f = false := by
    rw [← Bool.not_eq_true]
    exact mt checksumGood_iff_byteSum.mp hc
  exact parseFrame_of_bad_checksum (headerGood_iff.mpr (hasSync_of_wellFormed h)) hbad

/-- Settles O33: it holds, since all six kinds are received alike and this one fails the parse. -/
theorem corruptFramesAreDroppedAndLogged : Obligations.CorruptFramesAreDroppedAndLogged := by
  intro s f k hw hc
  rw [exec_frame_kind, receiveFrame_of_err (parseFrame_of_corrupt hw hc)]
  rfl

/-! ### Refresh before check -/

/-- In a session with these registers, no request waiting, the loop stands at this phase of the first of these iterations, and
has logged this many timeouts. -/
def State.Stands (p : Phase) (its : List Iteration) (h : Session) (timeouts : Nat) (s : State) : Prop :=
  s.phase = p ∧ s.requests = [] ∧ s.schedule = its ∧ s.session = some h ∧ s.log.count .timeoutReported = timeouts

section Stands

variable {s : State} {p : Phase} {it : Iteration} {its rest : List Iteration} {h : Session} {k : Nat}

@[simp] theorem State.stands_setAnswer (a : Answer) : (s.setAnswer a).Stands p its h k ↔ s.Stands p its h k := Iff.rfl
@[simp] theorem State.stands_setClock (n : Timestamp) : (s.setClock n).Stands p its h k ↔ s.Stands p its h k := Iff.rfl
@[simp] theorem State.stands_addWritten (f : Frame) : (s.addWritten f).Stands p its h k ↔ s.Stands p its h k := Iff.rfl

/-- Only a reported timeout counts. -/
theorem State.stands_addLog {e : LogEntry} (he : e ≠ .timeoutReported) :
    (s.addLog e).Stands p its h k ↔ s.Stands p its h k := by
  simp [State.Stands, he]

@[simp] theorem transportWrite_stands (ok : Bool) (f : Frame) :
    (transportWrite ok f s).Stands p its h k ↔ s.Stands p its h k := by
  obtain hw | hw := transportWrite_cases ok f s
  · rw [hw, State.stands_addWritten]
  · rw [hw, State.stands_addLog (by decide)]

theorem State.Stands.setSession (hs : s.Stands p its h k) (g : Session) : (s.setSession (some g)).Stands p its g k := by
  obtain ⟨hp, hreq, hsch, -, hlog⟩ := hs
  exact ⟨hp, hreq, hsch, rfl, hlog⟩

theorem State.Stands.setPhase (hs : s.Stands p its h k) (q : Phase) : (s.setPhase q).Stands q its h k := by
  obtain ⟨-, hrest⟩ := hs
  exact ⟨rfl, hrest⟩

/-- Step 1 with a heartbeat frame: the link is healthy from this iteration's sample on (R143). -/
theorem step_answers_stands_of_heartbeat (hs : s.Stands .receive (it :: rest) h k) (hd : it.shutdown = false) {f : Frame}
    (hg : it.group = some f.toList) (hw : (Instr.frameHeartbeatIn f).WellFormed)
    (hc : f[19].toNat = (byteSum f + 1) % 256) :
    Answers (State.Stands .tick (it :: rest) { h with lastRxTime := it.receiveNow, state := .healthy } k) (step s) := by
  have hclock : (s.setClock it.receiveNow).Stands .receive (it :: rest) h k := hs
  have ⟨hp, hreq, hsch, hh, _⟩ := hs
  have hi : decode .f20 f.toList = .ok (.frameHeartbeatIn f) := decode_f20_of_wellFormed (k := .heartbeatIn) hw
  rw [step_of_receive hreq hsch hp hd, receivePhase_of_decode hg hi, exec_frameHeartbeatIn hw hc, exec_hbRx,
    noteReceive_heartbeat (s := s.setClock it.receiveNow) hh, andThen_next, answers_next]
  exact State.Stands.setPhase (by simpa using hclock.setSession _) .tick

/-- Step 2 moves `last_tx_time` at most, whether its write succeeds or not, on an open transport or not. -/
theorem step_answers_stands_of_tick (hs : s.Stands .tick (it :: rest) h k)
    (hn : h.lastTxTime.toNat ≤ it.tickNow.toNat) :
    ∃ tx, Answers (State.Stands .check (it :: rest) { h with lastTxTime := tx } k) (step s) := by
  have hclock : (s.setClock it.tickNow).Stands .tick (it :: rest) h k := hs
  have ⟨hp, hreq, hsch, hh, _⟩ := hs
  rw [step_of_tick hreq hsch hp]
  cases hd : h.emitDue it.tickNow with
  | true =>
    refine ⟨it.tickNow, ?_⟩
    rw [tickPhase, exec_hbTick_of_due (s := s.setClock it.tickNow) hh hn hd, andThen_next, sendHeartbeat_emit rfl,
      andThen_next, answers_next]
    exact State.Stands.setPhase (by simpa using hclock.setSession _) .check
  | false =>
    refine ⟨h.lastTxTime, ?_⟩
    rw [tickPhase_of_not_due hh hn hd, andThen_next, answers_next]
    exact State.Stands.setPhase (by simpa using hs) .check

/-- Step 3 within the timeout of a noted heartbeat: nothing to report, and no register changes. -/
theorem step_answers_stands_of_check (hs : s.Stands .check (it :: rest) h k) (ha : h.state = .healthy)
    (hn : h.lastRxTime.toNat ≤ it.checkNow.toNat) (hd : it.checkNow.toNat - h.lastRxTime.toNat ≤ h.rxTimeout.toNat) :
    Answers (fun t => t.Stands .command (it :: rest) h k ∧ t.answer = .report false) (step s) := by
  have ⟨hp, hreq, hsch, hh, _⟩ := hs
  rw [step_of_check hreq hsch hp, checkPhase_of_not_silent hh (Session.armed_iff.mpr (.inl ha)) hn
    (Session.silent_eq_false_iff.mpr hd), andThen_next, answers_next]
  exact ⟨State.Stands.setPhase (by simpa using hs) .command, rfl⟩

end Stands

/-- A step that answers is the first of a run. -/
theorem run_succ_of_step {M : Host.Core} {s t : M.State} (h : M.step s = .next t) (n : Nat) : M.run (n + 1) s = M.run n t := by
  simp only [Host.Core.run, h]

/-- Settles O48: it holds. Step 1 refreshes `last_rx_time`, step 2 leaves it, and step 3 counts the silence from it. -/
theorem heartbeatInTheSameIterationBeatsTheTimeout : Obligations.HeartbeatInTheSameIterationBeatsTheTimeout := by
  intro s h it rest f hreq hp hsch hd hh hg hw hc htx hrx hsil
  have hs : s.Stands .receive (it :: rest) h (s.log.count .timeoutReported) := ⟨hp, hreq, hsch, hh, rfl⟩
  obtain ⟨u, hu, hus⟩ := step_answers_stands_of_heartbeat hs hd hg hw hc
  obtain ⟨tx, v, hv, hvs⟩ := step_answers_stands_of_tick hus htx
  obtain ⟨t, ht, ⟨htp, -, -, hth, hlog⟩, hans⟩ := step_answers_stands_of_check hvs rfl hrx hsil
  have hrun : Host.Core.run core 3 s = .next t := by
    rw [run_succ_of_step (M := core) hu, run_succ_of_step (M := core) hv, run_succ_of_step (M := core) ht]
    rfl
  exact ⟨t, _, hrun, htp, hans, hth, rfl, rfl, hlog⟩

end Sys2Proof.Machine

/-!
SUPPORT. What a reset starts and what a session is needed for (spec/70_reset_and_hazards.md R180, R181), and the hazards that
the supervisor excludes (R186, R192).
-/
namespace Sys2Proof.Machine

/-! ### Reset -/

theorem exec_reset_healthy {tx rx : Timestamp} {s t : State} (h : exec (.reset tx rx) s = .next t) :
    t.healthy = some false := by
  cases (exec_reset tx rx s).symm.trans h
  rfl

/-- Settles O12: it holds, the default configuration being that of R6. -/
theorem resetStartsASession : Obligations.ResetStartsASession :=
  ⟨fun s tx rx => exec_reset tx rx s, fun _ _ _ _ => exec_reset_healthy, rfl, rfl, fun _ _ => rfl⟩

/-- `last_tx_time` is 0 after a reset, so the interval alone decides about the next tick. -/
theorem performAll_reset_hbTick {tx now : Timestamp} (hn : tx.toNat ≤ now.toNat) (rx : Timestamp) (s : State) :
    performAll [.reset tx rx, .hbTick now] s =
      .next ((s.setSession (some { Session.start tx rx with lastTxTime := now })).setAnswer
        (.emit Config.heartbeatOut (zeroPayload s.params))) := by
  have hstarted : ((s.setSession (some (.start tx rx))).setAnswer .done).session = some (Session.start tx rx) := rfl
  have hdue : (Session.start tx rx).emitDue now = true := Session.emitDue_iff.mpr hn
  rw [performAll, exec_reset, andThen_next, performAll, exec_hbTick_of_due hstarted (Nat.zero_le _) hdue]
  rfl

/-! ### Without a session -/

theorem exec_hbCheck_of_no_session {s : State} (now : Timestamp) (hs : s.session = none) :
    exec (.hbCheck now) s = .refused .noSession := withSession_none hs

/-- Only `RESET` starts a session. -/
theorem exec_session_of_no_session {i : Instr} {s t : State} (hs : s.session = none) (ht : exec i s = .next t) :
    (∃ tx rx, i = .reset tx rx) ∨ t.session = none := by
  obtain ⟨g, hg, hc⟩ := exec_changed_of_session hs ht
  cases hc with
  | kept => exact .inr hg
  | started tx rx => exact .inl ⟨tx, rx, rfl⟩

/-- Settles O14: it holds. The supervisor's operations begin with the test for a session, the codec and the encoders only answer,
and an edge to `Unknown` starts there or is a reset. -/
theorem supervisorNeedsAResetAndForgetsAtOne : Obligations.SupervisorNeedsAResetAndForgetsAtOne := by
  refine ⟨fun s id now hs => ?refused, fun s id p f v sp m tmo _ hl => ?stateless, fun s tx rx now hn => ?forgets,
    fun i s t h' ht hh' hu => ?unknown⟩
  case refused =>
    exact ⟨exec_hbTick_of_no_session now hs, noteReceive_of_no_session hs id now, exec_hbCheck_of_no_session now hs⟩
  case stateless =>
    exact ⟨_, _, _, _, _, exec_encode_of_legal hl s, exec_decode f s, exec_cmdEncode v sp s, exec_estopEncode s,
      exec_configEncode m tmo s⟩
  case forgets => exact ⟨_, performAll_reset_hbTick hn rx s, rfl⟩
  case unknown =>
    cases hs : s.session with
    | none =>
      obtain hreset | hnone := exec_session_of_no_session hs ht
      · exact .inl hreset
      · cases hnone.symm.trans hh'
    | some h => exact (exec_state_eq_unknown hs ht hh' hu).imp_right fun hst => ⟨h, rfl, hst⟩

/-! ### A link that never comes up -/

/-- A reset leaves `Unknown` with `last_rx_time = 0`, which is not armed. -/
theorem exec_reset_ensures_disarmed (tx rx : Timestamp) (s : State) :
    Ensures (State.Disarmed .unknown 0) (exec (.reset tx rx) s) := by
  rw [exec_reset, ensures_next]
  exact ⟨_, rfl, Session.armed_eq_false_iff.mpr (.inr ⟨rfl, rfl⟩), rfl, rfl⟩

/-- Without a heartbeat the supervisor stays there, further resets included. -/
theorem exec_ensures_neverUp {i : Instr} (hnote : notesHeartbeat i = false) {s : State} (hs : s.Disarmed .unknown 0) :
    Ensures (State.Disarmed .unknown 0) (exec i s) := by
  by_cases hreset : ∃ tx rx, i = .reset tx rx
  · obtain ⟨tx, rx, rfl⟩ := hreset
    exact exec_reset_ensures_disarmed tx rx s
  · exact exec_ensures_disarmed hnote (fun tx rx hi => hreset ⟨tx, rx, hi⟩) hs

/-- Settles O25: it holds. `Unknown` with `last_rx_time = 0` is what a reset leaves, what everything but a heartbeat keeps, and
what a check does not report. -/
theorem linkThatNeverCameUpIsNeverReported : Obligations.LinkThatNeverCameUpIsNeverReported := by
  intro s t tx rx now ops hops ht
  obtain ⟨u, hu, hut⟩ := andThen_eq_next.mp ht
  obtain ⟨h, hh, harmed, hst, -⟩ := performAll_ensures (fun i hi _ => exec_ensures_neverUp (hops i hi))
    (exec_reset_ensures_disarmed tx rx s u hu) t hut
  exact ⟨by simp [State.healthy, Session.healthy, hh, hst], ⟨h, hh, hst⟩, exec_hbCheck_of_not_armed hh now harmed⟩

/-! ### Where health falls and where a heartbeat is emitted -/

theorem State.healthy_eq_true_iff {s : State} : s.healthy = some true ↔ ∃ h, s.session = some h ∧ h.state = .healthy := by
  simp [State.healthy, Session.healthy]

/-- `Healthy` is left by a check or a reset alone. -/
theorem exec_healthy {i : Instr} {s t : State} (ht : exec i s = .next t) (hs : s.healthy = some true) :
    t.healthy = some true ∨ (∃ now, i = .hbCheck now) ∨ ∃ tx rx, i = .reset tx rx := by
  obtain ⟨h, hh, hst⟩ := State.healthy_eq_true_iff.mp hs
  rw [State.healthy_eq_true_iff]
  obtain ⟨g, hg, hc⟩ := exec_changed_of_session hh ht
  cases hc with
  | kept => exact .inl ⟨h, hg, hst⟩
  | started tx rx => exact .inr (.inr ⟨tx, rx, rfl⟩)
  | ticked => exact .inl ⟨_, hg, hst⟩
  | noted => exact .inl ⟨_, hg, rfl⟩
  | silenced => exact .inr (.inl ⟨_, rfl⟩)

/-- Receiving a frame answers the result of `DECODE`, or nothing where it notes a heartbeat. -/
theorem receiveFrame_answer {f : Frame} {s t : State} (ht : receiveFrame f s = .next t) :
    t.answer = .done ∨ t.answer = .decoded (parseFrame f) := by
  obtain ⟨k, hp, rfl⟩ | ⟨p, g, -, -, rfl⟩ | ⟨id, p, hp, -, rfl⟩ := receiveFrame_eq_next ht
  · exact .inr (by simp [hp])
  · exact .inl rfl
  · exact .inr (by simp [hp])

/-- Only `HB_TICK` answers an emission: the column of results of R70. -/
theorem exec_answer_eq_emit {i : Instr} {s t : State} {id : CanId} {p : List Byte} (ht : exec i s = .next t)
    (ha : t.answer = .emit id p) : ∃ now, i = .hbTick now := by
  cases i with
  | hbTick now => exact ⟨now, rfl⟩
  | reset tx rx => cases (exec_reset tx rx s).symm.trans ht; cases ha
  | encode id payload =>
    cases he : encodable id payload with
    | true => cases (exec_encode_of_encodable he s).symm.trans ht; cases ha
    | false => cases (exec_encode_of_not_encodable he s).symm.trans ht
  | decode f => cases (exec_decode f s).symm.trans ht; cases ha
  | hbRx id now => obtain ⟨g, -, ⟨-, rfl⟩ | ⟨-, rfl⟩⟩ := noteReceive_eq_next ht <;> cases ha
  | hbCheck now =>
    obtain ⟨g, -, ⟨-, -, -, rfl⟩ | ⟨-, -, -, rfl⟩ | ⟨-, rfl⟩⟩ := exec_hbCheck_eq_next ht <;> cases ha
  | cmdEncode v sp => cases (exec_cmdEncode v sp s).symm.trans ht; cases ha
  | estopEncode => cases (exec_estopEncode s).symm.trans ht; cases ha
  | configEncode m n => cases (exec_configEncode m n s).symm.trans ht; cases ha
  | frame | frameMotorCmd | frameEmergencyStop | frameConfig | frameHeartbeatOut | frameHeartbeatIn =>
    obtain hd | hd := receiveFrame_answer ht <;> cases hd.symm.trans ha

/-- Settles O26: it holds, by the table of what changes the session and by what each instruction answers. -/
theorem healthFallsOnlyInCheckAndEmissionOnlyInTick : Obligations.HealthFallsOnlyInCheckAndEmissionOnlyInTick :=
  ⟨fun _ _ _ ht hs hne => (exec_healthy ht hs).resolve_left hne, fun _ _ _ _ _ => exec_answer_eq_emit⟩

end Sys2Proof.Machine
